-- ==== Sys2Proof/Word.lean ====
section
/-! DEFINITION. The word sizes PXF uses: all unsigned, bit 0 least significant (spec/00_scope.md section 6). -/

namespace Sys2Proof

/-- A channel byte, an 8-bit colour channel, a command byte, an opcode. -/
abbrev Byte := BitVec 8

/-- A 16-bit operand slot, a packed colour, a coordinate or a dimension (R50, R70). -/
abbrev Slot := BitVec 16

/-- The 32-bit result of a response, and the pixel counter `REM` (R52, R15). -/
abbrev Word := BitVec 32

/-- The 72-bit request word `REQ[71:0]` (R50). -/
abbrev ReqWord := BitVec 72

/-- The 40-bit response word `RSP[39:0]` (R52). -/
abbrev RspWord := BitVec 40

end Sys2Proof
end

