-- ==== Sys2Proof/Config.lean ====
section
/-! DEFINITION. The configuration record `Cfg` (R6), its default values for test vectors (R59, R82, R92), and the
free values the spec leaves open (constants with no body). -/

namespace Sys2Proof

/-- The name of a `WAIT(name)` event (R7): the three durations R6 names, and any further name an `INIT_SEQ` uses
(92_eei_decisions.md D15). -/
inductive WaitName where
  | resetHold
  | resetSettle
  | sleepOut
  | other (n : Nat)
  deriving DecidableEq, Repr, Inhabited

/-- One step of `INIT_SEQ`: a command byte with its payload, or a wait (R6). -/
inductive InitStep where
  | cmd (c : Byte) (ds : List Byte)
  | wait (n : WaitName)
  deriving DecidableEq, Repr, Inhabited

/-- `FLAGS_TABLE`: one MemoryAccessFlags byte per orientation (R6, R81), in the order of R56. -/
structure FlagsTable where
  np : Byte
  nl : Byte
  fp : Byte
  fl : Byte
  deriving DecidableEq, Repr, Inhabited

/-- The durations of R6 and those of further wait names, as lower bounds in a unit the spec does not name.
DESIGN CHOICE (log 7): naturals; no step reads them. -/
structure Durations where
  resetHold   : Nat
  resetSettle : Nat
  sleepOut    : Nat
  other       : List Nat
  deriving DecidableEq, Repr, Inhabited

/-- The immutable configuration record `Cfg` (R6). -/
structure Cfg where
  sx                     : Slot
  sy                     : Slot
  cmdSleepOut            : Byte
  cmdPixelFormatSet      : Byte
  cmdDisplayOn           : Byte
  cmdMemoryAccessControl : Byte
  cmdColumnAddressSet    : Byte
  cmdRowAddressSet       : Byte
  cmdMemoryWrite         : Byte
  flagsTable             : FlagsTable
  initSeq                : List InitStep
  durations              : Durations
  tolGShift              : Nat
  deriving DecidableEq, Repr, Inhabited

/-- The `Cfg` of the spec's test vectors: the default command bytes (R59), flags table (R82), init sequence (R92) and
`TOL_G_SHIFT` (R73), for a native size and durations the caller names. A default is no fact about a machine. -/
def Cfg.standard (sx sy : Slot) (d : Durations) : Cfg where
  sx := sx
  sy := sy
  cmdSleepOut := 0x11
  cmdPixelFormatSet := 0x3A
  cmdDisplayOn := 0x29
  cmdMemoryAccessControl := 0x36
  cmdColumnAddressSet := 0x2A
  cmdRowAddressSet := 0x2B
  cmdMemoryWrite := 0x2C
  flagsTable := ⟨0x48, 0x28, 0x88, 0xE8⟩
  initSeq := [.cmd 0x11 [], .wait .sleepOut, .cmd 0x3A [0x55], .cmd 0x29 []]
  durations := d
  tolGShift := 1

namespace Config

/-- The configuration of the machine at hand (R6, U8: a parameter). Free: nothing constrains it (log 1). -/
opaque installed : Cfg

/-- The channel oracle's answer to draw `n` (counting from 0 at power-on) where the state lists no answer (R8). Free
(log 3). -/
opaque chanOk : Nat → Bool

/-- The value of `PINS_OK` at RESET's sample `n` where the state lists none (R8). Free (log 2). -/
opaque pinsOk : Nat → Bool

/-- The level an unspecified data/command latch happens to have (R23, U9). Free; no operation reads it (log 5). -/
opaque unspecifiedDC : Bool

/-- The content of a frame-buffer cell that no DRAW_PIXEL_SOURCE has written since the buffer's contents last became
unspecified, for the `n`-th such time and the cell's index (R115, U13). Free (log 10). -/
opaque freshCell : Nat → Nat → Slot

end Config

end Sys2Proof
end

