-- ==== Sys2Proof/Syntax.lean ====
section
/-! DEFINITION. The request as fields (R50), the orientations (R56), and the twelve operations as one inductive (R53). -/

namespace Sys2Proof

/-- The four orientations, in the order of R56. -/
inductive Orientation where
  | np
  | nl
  | fp
  | fl
  deriving DecidableEq, Repr, Inhabited

/-- The fields of a request word: the opcode and the four operand slots (R50). -/
structure Request where
  op : Byte
  A  : Slot
  B  : Slot
  C  : Slot
  D  : Slot
  deriving DecidableEq, Repr, Inhabited

/-- The twelve operations with the operands R53 gives them. Each operand has exactly the width of the slice that holds
it, so that an out-of-domain operand cannot be written (R54). -/
inductive Instr where
  | encode (r g b : Byte)
  | decode (p : Slot)
  | nearlyEqual (pa pb : Slot) (tol : Byte)
  | flagsFor (o : Orientation)
  | effectiveSize (w h : Slot) (o : Orientation)
  | getScreenSize
  | reset
  | setOrientation (o : Orientation)
  | setWindow (x0 y0 x1 y1 : Slot)
  | streamPixel (p : Slot)
  | getStatus
  | getRemaining
  deriving DecidableEq, Repr, Inhabited

/-- The mnemonics of R53. -/
def Instr.mnemonic : Instr → String
  | .encode .. => "ENCODE"
  | .decode .. => "DECODE"
  | .nearlyEqual .. => "NEARLY_EQUAL"
  | .flagsFor .. => "FLAGS_FOR"
  | .effectiveSize .. => "EFFECTIVE_SIZE"
  | .getScreenSize => "GET_SCREEN_SIZE"
  | .reset => "RESET"
  | .setOrientation .. => "SET_ORIENTATION"
  | .setWindow .. => "SET_WINDOW"
  | .streamPixel .. => "STREAM_PIXEL"
  | .getStatus => "GET_STATUS"
  | .getRemaining => "GET_REMAINING"

/-- The assembler names of the orientations (R56). -/
def Orientation.asmName : Orientation → String
  | .np => "NP"
  | .nl => "NL"
  | .fp => "FP"
  | .fl => "FL"

/-- The operands of an operation in the order of R53, numbers in decimal (R62). -/
def Instr.asmOperands : Instr → List String
  | .encode r g b => [toString r.toNat, toString g.toNat, toString b.toNat]
  | .decode p => [toString p.toNat]
  | .nearlyEqual pa pb tol => [toString pa.toNat, toString pb.toNat, toString tol.toNat]
  | .flagsFor o => [o.asmName]
  | .effectiveSize w h o => [toString w.toNat, toString h.toNat, o.asmName]
  | .setOrientation o => [o.asmName]
  | .setWindow x0 y0 x1 y1 => [toString x0.toNat, toString y0.toNat, toString x1.toNat, toString y1.toNat]
  | .streamPixel p => [toString p.toNat]
  | .getScreenSize => []
  | .reset => []
  | .getStatus => []
  | .getRemaining => []

/-- The textual form `MNEMONIC operand, operand, ...` of a request (R62). -/
def Instr.asm (i : Instr) : String :=
  match i.asmOperands with
  | [] => i.mnemonic
  | ops => i.mnemonic ++ " " ++ ", ".intercalate ops

end Sys2Proof
end

