-- ==== Sys2Proof/WellFormed.lean ====
section
/-! DEFINITION. When a request word is legal: the match/mask table of R54 and the rule R55 over it. A term of `Instr` is
well formed by its operand types, which are exactly the slices of R53, so the check stands where an ill-formed term can be
written: at the request word. It is written apart from the decoder, which reads fields. -/

namespace Sys2Proof

/-- One row of the table of R54. -/
structure TableRow where
  mnemonic : String
  pattern  : ReqWord
  mask     : ReqWord
  deriving DecidableEq, Repr

/-- A request word selects a row when `REQ & mask = match` (R54). -/
def TableRow.selects (t : TableRow) (w : ReqWord) : Bool := w &&& t.mask == t.pattern

/-- The table of R54, row by row. -/
def opcodeTable : List TableRow :=
  [⟨"ENCODE",          0x010000000000000000, 0xFFFF00FF00FF00FFFF⟩,
   ⟨"DECODE",          0x020000000000000000, 0xFF0000FFFFFFFFFFFF⟩,
   ⟨"NEARLY_EQUAL",    0x030000000000000000, 0xFF00000000FF00FFFF⟩,
   ⟨"FLAGS_FOR",       0x100000000000000000, 0xFFFFFCFFFFFFFFFFFF⟩,
   ⟨"EFFECTIVE_SIZE",  0x110000000000000000, 0xFF00000000FFFCFFFF⟩,
   ⟨"GET_SCREEN_SIZE", 0x120000000000000000, 0xFFFFFFFFFFFFFFFFFF⟩,
   ⟨"RESET",           0x200000000000000000, 0xFFFFFFFFFFFFFFFFFF⟩,
   ⟨"SET_ORIENTATION", 0x210000000000000000, 0xFFFFFCFFFFFFFFFFFF⟩,
   ⟨"SET_WINDOW",      0x220000000000000000, 0xFF0000000000000000⟩,
   ⟨"STREAM_PIXEL",    0x230000000000000000, 0xFF0000FFFFFFFFFFFF⟩,
   ⟨"GET_STATUS",      0x240000000000000000, 0xFFFFFFFFFFFFFFFFFF⟩,
   ⟨"GET_REMAINING",   0x250000000000000000, 0xFFFFFFFFFFFFFFFFFF⟩]

/-- A well-formed (legal) request word selects a row of the table (R55). -/
def ReqWord.WellFormed (w : ReqWord) : Bool := opcodeTable.any (·.selects w)

end Sys2Proof
end

