-- ==== Sys2Proof/Decode.lean ====
section
/-! DEFINITION. The decoder of request words, total and rejecting by name (R50 to R55), and the encoder written from
the same tables. A request word is presented whole, so it has no byte order (R47). -/

namespace Sys2Proof

/-- Why a word spells no operation (R55). -/
inductive Reject where
  /-- The opcode is outside the twelve of R53. -/
  | undefinedOpcode (op : Byte)
  /-- The opcode is defined and a must-be-zero bit of R54 is set. -/
  | reservedBitsSet (op : Byte)
  deriving DecidableEq, Repr

/-- The fields of a request word (R50). -/
def Request.ofWord (w : ReqWord) : Request where
  op := w.extractLsb' 64 8
  A := w.extractLsb' 48 16
  B := w.extractLsb' 32 16
  C := w.extractLsb' 16 16
  D := w.extractLsb' 0 16

/-- The request word with the given fields (R50). -/
def Request.toWord (q : Request) : ReqWord :=
  q.op ++ q.A ++ q.B ++ q.C ++ q.D

/-- The two-bit code of an orientation (R56). -/
def Orientation.bits : Orientation → BitVec 2
  | .np => 0
  | .nl => 1
  | .fp => 2
  | .fl => 3

/-- The orientation with a given code: all four codes are legal (R13, R56). -/
def Orientation.ofBits (v : BitVec 2) : Orientation :=
  if v = 0 then .np else if v = 1 then .nl else if v = 2 then .fp else .fl

/-- The low byte of a slot: an 8-bit operand, or a half of a 16-bit one (R51, R61). -/
def Slot.lowByte (x : Slot) : Byte := x.extractLsb' 0 8

/-- The high byte of a slot (R51, R61). -/
def Slot.highByte (x : Slot) : Byte := x.extractLsb' 8 8

/-- The low two bits of a slot, an orientation operand (R51). -/
def Slot.orientation (x : Slot) : Orientation := .ofBits (x.extractLsb' 0 2)

/-- The operation the fields spell, their must-be-zero bits aside: the opcode map of R53. -/
def Request.operation (q : Request) : Option Instr :=
  match q.op with
  | 0x01#8 => some (.encode q.A.lowByte q.B.lowByte q.C.lowByte)
  | 0x02#8 => some (.decode q.A)
  | 0x03#8 => some (.nearlyEqual q.A q.B q.C.lowByte)
  | 0x10#8 => some (.flagsFor q.A.orientation)
  | 0x11#8 => some (.effectiveSize q.A q.B q.C.orientation)
  | 0x12#8 => some .getScreenSize
  | 0x20#8 => some .reset
  | 0x21#8 => some (.setOrientation q.A.orientation)
  | 0x22#8 => some (.setWindow q.A q.B q.C q.D)
  | 0x23#8 => some (.streamPixel q.A)
  | 0x24#8 => some .getStatus
  | 0x25#8 => some .getRemaining
  | _ => none

/-- The high byte of a slot is zero: the slot holds an 8-bit operand (R51, R54). -/
def Slot.highByteClear (x : Slot) : Bool := x.highByte == 0

/-- Bits 15:2 of a slot are zero: the slot holds an orientation (R51, R54). -/
def Slot.aboveOrientationClear (x : Slot) : Bool := x.extractLsb' 2 14 == 0

/-- Every slot bit that the operation's operand list does not name is zero (R54). -/
def Request.reservedClear (q : Request) : Instr → Bool
  | .encode .. => q.A.highByteClear && q.B.highByteClear && q.C.highByteClear && q.D == 0
  | .decode .. => q.B == 0 && q.C == 0 && q.D == 0
  | .nearlyEqual .. => q.C.highByteClear && q.D == 0
  | .flagsFor .. => q.A.aboveOrientationClear && q.B == 0 && q.C == 0 && q.D == 0
  | .effectiveSize .. => q.C.aboveOrientationClear && q.D == 0
  | .getScreenSize => q.A == 0 && q.B == 0 && q.C == 0 && q.D == 0
  | .reset => q.A == 0 && q.B == 0 && q.C == 0 && q.D == 0
  | .setOrientation .. => q.A.aboveOrientationClear && q.B == 0 && q.C == 0 && q.D == 0
  | .setWindow .. => true
  | .streamPixel .. => q.B == 0 && q.C == 0 && q.D == 0
  | .getStatus => q.A == 0 && q.B == 0 && q.C == 0 && q.D == 0
  | .getRemaining => q.A == 0 && q.B == 0 && q.C == 0 && q.D == 0

/-- Decode a request word: the opcode first, then the must-be-zero bits (R53, R54, R55). -/
def decode (w : ReqWord) : Except Reject Instr :=
  let q := Request.ofWord w
  match q.operation with
  | none => .error (.undefinedOpcode q.op)
  | some i => if q.reservedClear i then .ok i else .error (.reservedBitsSet q.op)

/-- An 8-bit operand in the low byte of a slot, the high byte zero (R51, R54). -/
def byteSlot (v : Byte) : Slot := 0#8 ++ v

/-- An orientation in the low two bits of a slot, the rest zero (R51, R54). -/
def orientationSlot (o : Orientation) : Slot := 0#14 ++ o.bits

/-- The fields of an operation's request (R53, R54). -/
def Instr.request : Instr → Request
  | .encode r g b => ⟨0x01, byteSlot r, byteSlot g, byteSlot b, 0⟩
  | .decode p => ⟨0x02, p, 0, 0, 0⟩
  | .nearlyEqual pa pb tol => ⟨0x03, pa, pb, byteSlot tol, 0⟩
  | .flagsFor o => ⟨0x10, orientationSlot o, 0, 0, 0⟩
  | .effectiveSize w h o => ⟨0x11, w, h, orientationSlot o, 0⟩
  | .getScreenSize => ⟨0x12, 0, 0, 0, 0⟩
  | .reset => ⟨0x20, 0, 0, 0, 0⟩
  | .setOrientation o => ⟨0x21, orientationSlot o, 0, 0, 0⟩
  | .setWindow x0 y0 x1 y1 => ⟨0x22, x0, y0, x1, y1⟩
  | .streamPixel p => ⟨0x23, p, 0, 0, 0⟩
  | .getStatus => ⟨0x24, 0, 0, 0, 0⟩
  | .getRemaining => ⟨0x25, 0, 0, 0, 0⟩

/-- The request word of an operation. -/
def encode (i : Instr) : ReqWord := i.request.toWord

/-- The request word whose low `nbits` bits are those of `w` and whose other bits are 0. The table numbers the bits of
the one 72-bit word from its least significant bit, as R50 does. -/
def tableWord (nbits w : Nat) : ReqWord := BitVec.ofNat 72 (w % 2 ^ nbits)

/-- What the decoder reads from a word numbered as spec/opcode_table.json numbers it. -/
def decodeTableWord (nbits w : Nat) : Option Instr :=
  match decode (tableWord nbits w) with
  | .ok i => some i
  | .error _ => none

end Sys2Proof
end

