-- ==== Sys2Proof/Machine/State.lean ====
section
/-! DEFINITION. The architectural state of PXF (R10), its events and responses (R7, R52, R57), what the spec passes to a
step as arguments (R6, R8, R9), and the state at power-on (R23). -/

namespace Sys2Proof.Machine

/-- The sequencer phase `PHASE` (R12). -/
inductive Phase where
  | uninit
  | ready
  | streaming
  | corrupt
  deriving DecidableEq, Repr, Inhabited

/-- The outcome of an operation, reported in its response (R57, R120). -/
inductive Err where
  | ok
  | initializationError
  | invalidGeometry
  | transportError
  | illegalRequest
  | sequenceError
  deriving DecidableEq, Repr, Inhabited

/-- A response: the error field and the 32-bit result (R52). -/
structure Response where
  err : Err
  res : Word
  deriving DecidableEq, Repr, Inhabited

/-- The events of the output trace (R7); a level is a Bool, `true` for 1. -/
inductive Event where
  /-- The reset pin is driven to a level; 0 is asserted. -/
  | rst (v : Bool)
  /-- Chip select is driven to a level; 0 is asserted. -/
  | cs (v : Bool)
  /-- A byte was written to the channel at a data/command level. -/
  | tx (dc : Bool) (b : Byte)
  /-- A byte write at a data/command level was attempted and failed. -/
  | txFail (dc : Bool) (b : Byte)
  /-- PXF idles for at least the named duration. -/
  | wait (n : WaitName)
  deriving DecidableEq, Repr, Inhabited

/-- An environment input of R8 as plain data: the answers to come, in order, and how many have been drawn since power-on.
Where `answers` runs out, the answer is a free value of the draw's number (`Config.chanOk`, `Config.pinsOk`). -/
structure Oracle where
  answers : List Bool
  drawn   : Nat
  deriving DecidableEq, Repr, Inhabited

/-- The state of PXF. The first eight fields are the whole of R10, `trace` and `rsps` are the ghost history of R19, and
the last four carry what R6, R8 and R9 give a step as arguments. -/
structure State where
  /-- `PHASE` (R12). -/
  phase    : Phase
  /-- `ORIENT` (R13). -/
  orient   : Orientation
  /-- `EW` (R14). -/
  ew       : Slot
  /-- `EH` (R14). -/
  eh       : Slot
  /-- `REM` (R15). -/
  rem      : Word
  /-- `CS_N`, `false` asserted (R16). -/
  csN      : Bool
  /-- `DC`, absent while unspecified (R17, R23). -/
  dc       : Option Bool
  /-- `RST_N`, absent while unspecified (R18, R23). -/
  rstN     : Option Bool
  /-- `TRACE`, oldest event first (R7, R19). -/
  trace    : List Event
  /-- `RSPS`, oldest response first (R19). -/
  rsps     : List Response
  /-- The configuration, written by no step (R6, R25). -/
  cfg      : Cfg
  /-- `PINS_OK`, sampled by RESET (R8). -/
  pins     : Oracle
  /-- `ChanOk`, drawn once per attempted byte write (R8). -/
  chan     : Oracle
  /-- The request words presented at the port and not yet accepted, oldest first (R9, R50). -/
  requests : List ReqWord
  deriving DecidableEq, Repr

/-- The reasons a step could stop with a fault: there are none. Every error the spec describes is a response (R120,
R129), and a situation the spec leaves without a move (a second requester, a cancellation: U4, U5) cannot be written as a
state. Raised by nobody; safe. -/
inductive Fault where
  deriving DecidableEq, Repr

/-- The reasons a step could be refused. -/
inductive Refusal where
  /-- An arm of `exec` whose instruction has no meaning yet. Raised by no arm of this model; safe. -/
  | notModelled (mnemonic : String)
  deriving DecidableEq, Repr

/-- The power-on state of a machine with a given configuration and environment (R23, R140): no event, no response, no
request. -/
def State.powerOn (cfg : Cfg) (pins chan : Oracle) : State where
  phase := .uninit
  orient := .np
  ew := cfg.sx
  eh := cfg.sy
  rem := 0
  csN := true
  dc := none
  rstN := none
  trace := []
  rsps := []
  cfg := cfg
  pins := pins
  chan := chan
  requests := []

/-- Power-on of the machine at hand: its configuration and its environment's answers are free values (log 1 to 4). -/
def State.reset : State := .powerOn Config.installed ⟨[], 0⟩ ⟨[], 0⟩

end Sys2Proof.Machine
end

