-- ==== Sys2Proof/Machine/Operands.lean ====
section
/-! DEFINITION. How operands are taken apart and put together: the packed colour (R70 to R73), the bytes of a 16-bit
quantity on the wire (R33, R34, R61), the window's bounds and pixel count (R94, R100), and two-field results (R52). -/

namespace Sys2Proof.Machine

/-- `swap16(v)`: the two bytes exchanged (spec/00_scope.md section 6). -/
def swap16 (v : Slot) : Slot := v.lowByte ++ v.highByte

/-- The three 8-bit channels of a colour. -/
structure Rgb where
  r : Byte
  g : Byte
  b : Byte
  deriving DecidableEq, Repr, Inhabited

/-- The PackedColor of three channels: each truncated to its most significant 5, 6 or 5 bits, concatenated, the bytes
swapped (R71). -/
def packColor (c : Rgb) : Slot :=
  swap16 (c.r.extractLsb' 3 5 ++ c.g.extractLsb' 2 6 ++ c.b.extractLsb' 3 5)

/-- A stored 5-bit channel widened: zeros below, the maximum forced to 0xFF (R72). -/
def widen5 (v : BitVec 5) : Byte := if v = 31 then 0xFF else v ++ 0#3

/-- A stored 6-bit channel widened: zeros below, the maximum forced to 0xFF (R72). -/
def widen6 (v : BitVec 6) : Byte := if v = 63 then 0xFF else v ++ 0#2

/-- The channels a PackedColor decodes to (R72). -/
def unpackColor (p : Slot) : Rgb :=
  let nat := swap16 p
  ⟨widen5 (nat.extractLsb' 11 5), widen6 (nat.extractLsb' 5 6), widen5 (nat.extractLsb' 0 5)⟩

/-- `|a - b|` in naturals (R76). -/
def absDiff (a b : Byte) : Nat := (a.toNat - b.toNat) + (b.toNat - a.toNat)

/-- Whether two packed colours are nearly equal: exactly equal, or every decoded difference within the tolerance, which
is shifted right for green (R73). -/
def nearlyEqual (tolGShift : Nat) (pa pb : Slot) (tol : Byte) : Bool :=
  let a := unpackColor pa
  let b := unpackColor pb
  pa == pb ||
    (decide (absDiff a.r b.r ≤ tol.toNat) && decide (absDiff a.g b.g ≤ tol.toNat >>> tolGShift)
      && decide (absDiff a.b b.b ≤ tol.toNat))

/-- The bytes of a colour as DECODE returns them: `0x00 ++ r ++ g ++ b` (R52, R72). -/
def rgbWord (c : Rgb) : Word := 0#8 ++ c.r ++ c.g ++ c.b

/-- Two 16-bit values as one result, the first in the high half (R52). -/
def pairWord (hi lo : Slot) : Word := hi ++ lo

/-- The payload of an address-set command: two bounds, each high byte first (R33, R58). -/
def boundsPayload (lo hi : Slot) : List Byte := [lo.highByte, lo.lowByte, hi.highByte, hi.lowByte]

/-- The two bytes of a pixel in wire order: the packed value's low byte first (R34, R95). -/
def pixelBytes (p : Slot) : List Byte := [p.lowByte, p.highByte]

/-- The bounds test of SET_WINDOW, unsigned (R94, R100). -/
def insideScreen (ew eh x0 y0 x1 y1 : Slot) : Bool :=
  decide (x0 ≤ x1) && decide (x1 < ew) && decide (y0 ≤ y1) && decide (y1 < eh)

/-- The pixel count of a window with inclusive bounds (R94, R100). -/
def pixelCount (x0 y0 x1 y1 : Slot) : Nat :=
  (x1.toNat - x0.toNat + 1) * (y1.toNat - y0.toNat + 1)

end Sys2Proof.Machine
end

