-- ==== Sys2Proof/Machine/Flags.lean ====
section
/-! DEFINITION. The MemoryAccessFlags byte and its table (R60, R81), the effective size (R84), the codes of phases and
errors (R12, R57), and the words built from them (R52, R96). PXF has no condition codes (R21). -/

namespace Sys2Proof.Machine

/-- `landscape(o)` (R80). -/
def landscape : Orientation → Bool
  | .np => false
  | .nl => true
  | .fp => false
  | .fl => true

/-- `flagsFor(o)`: the table's byte (R81). -/
def flagsOf (t : FlagsTable) : Orientation → Byte
  | .np => t.np
  | .nl => t.nl
  | .fp => t.fp
  | .fl => t.fl

/-- `effectiveSize(w, h, o)` (R84). -/
def effectiveSize (w h : Slot) (o : Orientation) : Slot × Slot :=
  if landscape o then (h, w) else (w, h)

/-- The six flags of the byte, in the layout of R60. -/
def rowOrder (f : Byte) : Bool := f.getLsbD 7
def columnOrder (f : Byte) : Bool := f.getLsbD 6
def rowColumnExchange (f : Byte) : Bool := f.getLsbD 5
def verticalRefreshOrder (f : Byte) : Bool := f.getLsbD 4
def colorChannelOrder (f : Byte) : Bool := f.getLsbD 3
def horizontalRefreshOrder (f : Byte) : Bool := f.getLsbD 2

/-- The code of a phase (R12). -/
def Phase.bits : Phase → BitVec 2
  | .uninit => 0
  | .ready => 1
  | .streaming => 2
  | .corrupt => 3

/-- The code of an error (R57). -/
def Err.code : Err → Byte
  | .ok => 0
  | .initializationError => 1
  | .invalidGeometry => 2
  | .transportError => 3
  | .illegalRequest => 4
  | .sequenceError => 5

/-- The 40-bit response word (R52). -/
def Response.word (r : Response) : RspWord := r.err.code ++ r.res

/-- GET_STATUS's result: `CS_N` in bit 4, `ORIENT` in bits 3:2, `PHASE` in bits 1:0 (R52, R96). -/
def statusWord (csN : Bool) (o : Orientation) (p : Phase) : Word :=
  (BitVec.ofBool csN ++ o.bits ++ p.bits).setWidth 32

end Sys2Proof.Machine
end

