-- ==== Sys2Proof/Machine/Ops.lean ====
section
/-! DEFINITION. The shared operations: responding and failing (R52, R121), drawing from the environment (R8), driving the
output latches (R16, R17, R18), writing to the channel (R31, R32), the channel failure (R99, R124), the init sequence
(R91), phase admission (R98), and accepting a request (R44). PXF has no return from an error (R130). -/

namespace Sys2Proof.Machine

/-- Append a response to the history (R19). -/
def respond (e : Err) (v : Word) (s : State) : State := { s with rsps := s.rsps ++ [⟨e, v⟩] }

/-- End an operation with success and a result (R52). -/
def succeed (v : Word) (s : State) : State := respond .ok v s

/-- `fail E`: end an operation with an error and result 0 (R121). -/
def fail (e : Err) (s : State) : State := respond e 0 s

/-- Append events to the trace (R7). -/
def emit (es : List Event) (s : State) : State := { s with trace := s.trace ++ es }

/-- The answer an environment input will give to its `k`-th draw from now: the listed one, else the free value. -/
def Oracle.answer (free : Nat → Bool) (o : Oracle) (k : Nat) : Bool :=
  (o.answers[k]?).getD (free (o.drawn + k))

/-- An environment input after `n` draws. -/
def Oracle.skip (n : Nat) (o : Oracle) : Oracle := ⟨o.answers.drop n, o.drawn + n⟩

/-- Whether RESET's pin test passes now (R8, R91). -/
def State.pinsOk (s : State) : Bool := s.pins.answer Config.pinsOk 0

/-- The sample of `PINS_OK` is taken. -/
def samplePins (s : State) : State := { s with pins := s.pins.skip 1 }

/-- The answer of the channel oracle to the `k`-th byte write from now (R8). -/
def State.chanAnswer (s : State) (k : Nat) : Bool := s.chan.answer Config.chanOk k

/-- One answer of the channel oracle is consumed (R31). -/
def drawChan (s : State) : State := { s with chan := s.chan.skip 1 }

/-- Drive chip select: a change of level emits an event, no change emits nothing (R16). -/
def driveCS (v : Bool) (s : State) : State :=
  if s.csN = v then s else emit [.cs v] { s with csN := v }

/-- Drive the data/command select; it has no event of its own (R17). -/
def driveDC (v : Bool) (s : State) : State := { s with dc := some v }

/-- Drive the reset pin; each write emits an event (R18). -/
def driveRST (v : Bool) (s : State) : State := emit [.rst v] { s with rstN := some v }

/-- `emit WAIT(n)` (R7). -/
def idle (n : WaitName) (s : State) : State := emit [.wait n] s

/-- The level of the data/command select as the channel sees it; a free value while the latch is unspecified, which no
operation lets happen (R17, R23). -/
def State.dcLevel (s : State) : Bool := s.dc.getD Config.unspecifiedDC

/-- Channel activity that either goes on or was ended by a failed byte (R99). -/
inductive Transfer where
  | sent (s : State)
  | failed (s : State)
  deriving DecidableEq, Repr

/-- Go on only where no byte has failed. -/
def Transfer.andThen (t : Transfer) (k : State → Transfer) : Transfer :=
  match t with
  | .sent s => k s
  | .failed s => .failed s

/-- The state effect of a failed byte: release chip select, clear `REM`, phase CORRUPT (R99, R124). The operation that
sent the byte reports the error. -/
def transportFailure (s : State) : State :=
  { driveCS true s with rem := 0, phase := .corrupt }

/-- `Send(b)` (R31). -/
def send (b : Byte) (s : State) : Transfer :=
  if s.chanAnswer 0 then .sent (emit [.tx s.dcLevel b] (drawChan s))
  else .failed (transportFailure (emit [.txFail s.dcLevel b] (drawChan s)))

/-- `Send` of each byte in order. -/
def sendAll : List Byte → State → Transfer
  | [], s => .sent s
  | b :: bs, s => (send b s).andThen (sendAll bs)

/-- Assert chip select and send the command byte with D/C low: the opening of a transaction (R32, R94). -/
def openCommand (c : Byte) (s : State) : Transfer := send c (driveDC false (driveCS false s))

/-- Send a payload with D/C high; an empty payload leaves D/C as it is (R32). -/
def sendPayload (ds : List Byte) (s : State) : Transfer :=
  match ds with
  | [] => .sent s
  | d :: rest => sendAll (d :: rest) (driveDC true s)

/-- `Command(c, ds)`: one framed transaction (R32). -/
def command (c : Byte) (ds : List Byte) (s : State) : Transfer :=
  ((openCommand c s).andThen (sendPayload ds)).andThen fun s => .sent (driveCS true s)

/-- Replay an init sequence in order (R91). -/
def runInit : List InitStep → State → Transfer
  | [], s => .sent s
  | .cmd c ds :: rest, s => (command c ds s).andThen (runInit rest)
  | .wait n :: rest, s => runInit rest (idle n s)

/-- The hardware reset pulse with its two waits (R91, R143). -/
def resetPulse (s : State) : State :=
  idle .resetSettle (driveRST true (idle .resetHold (driveRST false s)))

/-- End an operation that used the channel: report the given error after a failed byte, else finish (R99, R121). -/
def conclude (onFailure : Err) (t : Transfer) (k : State → State) : State :=
  match t with
  | .sent s => k s
  | .failed s => fail onFailure s

/-- Admission of an operation that needs one phase: SequenceError in every other (R98, R126). -/
def whenPhase (p : Phase) (s : State) (k : State → State) : State :=
  if s.phase = p then k s else fail .sequenceError s

/-- The refusal of a word that spells no operation (R55, R125). -/
def refuseIllegal (s : State) : State := fail .illegalRequest s

/-- Accept the oldest request presented, whole (R44); nothing if none waits (R140). -/
def acceptRequest (s : State) : Option (ReqWord × State) :=
  match s.requests with
  | [] => none
  | w :: rest => some (w, { s with requests := rest })

/-- Present a request word ahead of any other. -/
def present (w : ReqWord) (s : State) : State := { s with requests := w :: s.requests }

end Sys2Proof.Machine
end

