-- ==== Sys2Proof/Machine/Codec.lean ====
section
/-! DEFINITION. The codec unit: ENCODE, DECODE, NEARLY_EQUAL. Pure: only a response is added (R75). -/

namespace Sys2Proof.Machine

/-- `ENCODE r, g, b` (R71). -/
def execEncode (r g b : Byte) (s : State) : Host.Outcome State Fault Refusal :=
  .next (succeed ((packColor ⟨r, g, b⟩).setWidth 32) s)

/-- `DECODE p` (R72). -/
def execDecode (p : Slot) (s : State) : Host.Outcome State Fault Refusal :=
  .next (succeed (rgbWord (unpackColor p)) s)

/-- `NEARLY_EQUAL pa, pb, tol` (R73). -/
def execNearlyEqual (pa pb : Slot) (tol : Byte) (s : State) : Host.Outcome State Fault Refusal :=
  .next (succeed (if nearlyEqual s.cfg.tolGShift pa pb tol then 1 else 0) s)

end Sys2Proof.Machine
end

