-- ==== Sys2Proof/Machine/Framer.lean ====
section
/-! DEFINITION. The framer unit: RESET, SET_ORIENTATION, SET_WINDOW, STREAM_PIXEL, GET_STATUS, GET_REMAINING. -/

namespace Sys2Proof.Machine

/-- RESET after its pin test: close an open transaction, clear `REM`, pulse, replay the init sequence, phase READY
(R91). A failed byte is a reset failure, InitializationError (R99). -/
def resetPanel (s : State) : State :=
  conclude .initializationError
    (runInit s.cfg.initSeq (resetPulse { driveCS true s with rem := 0 }))
    fun t => succeed 0 { t with phase := .ready }

/-- `RESET` (R91), admitted in every phase (R98). -/
def execReset (s : State) : Host.Outcome State Fault Refusal :=
  .next (if s.pinsOk then resetPanel (samplePins s) else fail .initializationError (samplePins s))

/-- Cache an orientation and the effective size it gives (R14, R93). -/
def cacheGeometry (o : Orientation) (s : State) : State :=
  { s with
    orient := o
    ew := (effectiveSize s.cfg.sx s.cfg.sy o).1
    eh := (effectiveSize s.cfg.sx s.cfg.sy o).2 }

/-- `SET_ORIENTATION o` (R93), admitted in READY (R98). -/
def execSetOrientation (o : Orientation) (s : State) : Host.Outcome State Fault Refusal :=
  .next <| whenPhase .ready s fun s =>
    conclude .transportError (command s.cfg.cmdMemoryAccessControl [flagsOf s.cfg.flagsTable o] s)
      fun t => succeed 0 (cacheGeometry o t)

/-- The channel activity of SET_WINDOW: the column and row transactions, then the memory-write command, whose transaction
stays open (R94). -/
def addressWindow (x0 y0 x1 y1 : Slot) (s : State) : Transfer :=
  ((command s.cfg.cmdColumnAddressSet (boundsPayload x0 x1) s).andThen
    (command s.cfg.cmdRowAddressSet (boundsPayload y0 y1))).andThen
    (openCommand s.cfg.cmdMemoryWrite)

/-- The memory-write transaction is open for a number of pixels (R94). -/
def beginStream (n : Word) (s : State) : State :=
  { driveDC true s with rem := n, phase := .streaming }

/-- `SET_WINDOW x0, y0, x1, y1` (R94), admitted in READY (R98). -/
def execSetWindow (x0 y0 x1 y1 : Slot) (s : State) : Host.Outcome State Fault Refusal :=
  .next <| whenPhase .ready s fun s =>
    if insideScreen s.ew s.eh x0 y0 x1 y1 then
      conclude .transportError (addressWindow x0 y0 x1 y1 s) fun t =>
        succeed (BitVec.ofNat 32 (pixelCount x0 y0 x1 y1))
          (beginStream (BitVec.ofNat 32 (pixelCount x0 y0 x1 y1)) t)
    else fail .invalidGeometry s

/-- One pixel less is owed; the last one closes the memory-write transaction (R95). -/
def countPixel (s : State) : State :=
  if s.rem - 1 = 0 then { driveCS true s with rem := 0, phase := .ready }
  else { s with rem := s.rem - 1 }

/-- `STREAM_PIXEL p` (R95), admitted in STREAMING (R98). -/
def execStreamPixel (p : Slot) (s : State) : Host.Outcome State Fault Refusal :=
  .next <| whenPhase .streaming s fun s =>
    conclude .transportError (sendAll (pixelBytes p) (driveDC true s)) fun t =>
      succeed (countPixel t).rem (countPixel t)

/-- `GET_STATUS` (R96). -/
def execGetStatus (s : State) : Host.Outcome State Fault Refusal :=
  .next (succeed (statusWord s.csN s.orient s.phase) s)

/-- `GET_REMAINING` (R97). -/
def execGetRemaining (s : State) : Host.Outcome State Fault Refusal :=
  .next (succeed s.rem s)

end Sys2Proof.Machine
end

