-- ==== Sys2Proof/Machine/Orientation.lean ====
section
/-! DEFINITION. The orientation unit: FLAGS_FOR, EFFECTIVE_SIZE, GET_SCREEN_SIZE. Only a response is added. -/

namespace Sys2Proof.Machine

/-- `FLAGS_FOR o` (R83). -/
def execFlagsFor (o : Orientation) (s : State) : Host.Outcome State Fault Refusal :=
  .next (succeed ((flagsOf s.cfg.flagsTable o).setWidth 32) s)

/-- `EFFECTIVE_SIZE w, h, o` (R85). -/
def execEffectiveSize (w h : Slot) (o : Orientation) (s : State) : Host.Outcome State Fault Refusal :=
  .next (succeed (pairWord (effectiveSize w h o).1 (effectiveSize w h o).2) s)

/-- `GET_SCREEN_SIZE` (R86): the cached effective size. -/
def execGetScreenSize (s : State) : Host.Outcome State Fault Refusal :=
  .next (succeed (pairWord s.ew s.eh) s)

end Sys2Proof.Machine
end

