-- ==== Sys2Proof/Machine/Dispatch.lean ====
section
/-! DEFINITION. One arm per operation, each a direct call of its meaning. -/

namespace Sys2Proof.Machine

def exec (i : Instr) (s : State) : Host.Outcome State Fault Refusal :=
  match i with
  | .encode r g b => Sys2Proof.Machine.execEncode r g b s
  | .decode p => Sys2Proof.Machine.execDecode p s
  | .nearlyEqual pa pb tol => Sys2Proof.Machine.execNearlyEqual pa pb tol s
  | .flagsFor o => Sys2Proof.Machine.execFlagsFor o s
  | .effectiveSize w h o => Sys2Proof.Machine.execEffectiveSize w h o s
  | .getScreenSize => Sys2Proof.Machine.execGetScreenSize s
  | .reset => Sys2Proof.Machine.execReset s
  | .setOrientation o => Sys2Proof.Machine.execSetOrientation o s
  | .setWindow x0 y0 x1 y1 => Sys2Proof.Machine.execSetWindow x0 y0 x1 y1 s
  | .streamPixel p => Sys2Proof.Machine.execStreamPixel p s
  | .getStatus => Sys2Proof.Machine.execGetStatus s
  | .getRemaining => Sys2Proof.Machine.execGetRemaining s

end Sys2Proof.Machine
end

