-- ==== Sys2Proof/Machine/Step.lean ====
section
/-! DEFINITION. One step is the execution of one request to completion (R9). -/

namespace Sys2Proof.Machine

/-- Accept the oldest request and execute it; a word that spells no operation is refused (R55). With no request nothing
happens (R127, R140). -/
def step (s : State) : Host.Outcome State Fault Refusal :=
  match acceptRequest s with
  | none => .next s
  | some (w, t) =>
    match decode w with
    | .ok i => exec i t
    | .error _ => .next (refuseIllegal t)

/-- Present the table word at the request port, ahead of any other request (log 4). -/
def State.withFetchWord (s : State) (nbits w : Nat) : State := present (tableWord nbits w) s

end Sys2Proof.Machine
end

