-- ==== Sys2Proof/Machine/Panel.lean ====
section
/-! DEFINITION. The abstract panel of R36 to R38 as a view of the trace: an informative agent that goes to unknown
wherever the spec is silent. No operation of PXF depends on it. -/

namespace Sys2Proof.Machine

/-- A window latched by a memory-write command: inclusive bounds, in order in both dimensions (`Panel.selected`). -/
structure Window where
  x0 : Slot
  y0 : Slot
  x1 : Slot
  y1 : Slot
  deriving DecidableEq, Repr, Inhabited

/-- `w = x1 - x0 + 1` (R37). The subtraction never truncates, because a window whose bounds are reversed is never latched
(`Panel.selected`). -/
def Window.width (w : Window) : Nat := w.x1.toNat - w.x0.toNat + 1

/-- The window's pixel count (R37). -/
def Window.count (w : Window) : Nat := pixelCount w.x0 w.y0 w.x1 w.y1

/-- The panel's state (R36); an absent value is unknown. -/
structure Panel where
  /-- `pFLAGS`. -/
  flags : Option Byte
  /-- The `x` bounds of `pWIN`. -/
  cols  : Option (Slot × Slot)
  /-- The `y` bounds of `pWIN`. -/
  rows  : Option (Slot × Slot)
  /-- The window in force when the last memory-write command arrived (DEDUCED, log 9). -/
  win   : Option Window
  /-- `pK`: pixels received in the open window. -/
  k     : Option Nat
  /-- `pMEM`: known pixels as natural values, the latest first; a coordinate not listed is unknown. -/
  mem   : List ((Nat × Nat) × Slot)
  /-- The open transaction: its command byte and the data bytes not yet used. -/
  rx    : Option (Byte × List Byte)
  deriving DecidableEq, Repr

/-- Everything unknown. -/
def Panel.unknown : Panel := ⟨none, none, none, none, none, [], none⟩

/-- A pixel of the panel, absent if unknown. -/
def Panel.pixel (p : Panel) (x y : Nat) : Option Slot := p.mem.lookup (x, y)

/-- Pixels may still be owed since the last memory-write command: `pK` is less than the window's pixel count (R38).
DESIGN CHOICE (log 9): R38 gives no comparison where `pK` is known and the window is not, and the model counts that as
pixels owed. With `pK` unknown nothing is owed (the vectors of spec/95_test_vectors.md section 4 go on from there). -/
def Panel.midStream (p : Panel) : Bool :=
  match p.win, p.k with
  | some w, some k => k < w.count
  | none, some _ => true
  | _, none => false

/-- The window the last address-set commands selected, if all bounds are known (R36). DESIGN CHOICE (log 9): the spec is
silent on reversed bounds, which only a payload of `INIT_SEQ` can send, and the model takes them for an unknown window, so
that a pixel sent into it makes all unknown. -/
def Panel.selected (p : Panel) : Option Window :=
  match p.cols, p.rows with
  | some (x0, x1), some (y0, y1) => if x0 ≤ x1 ∧ y0 ≤ y1 then some ⟨x0, y0, x1, y1⟩ else none
  | _, _ => none

/-- A command byte arrives: memory-write starts a stream; any other while pixels may be owed makes all unknown (R36, R38). -/
def Panel.command (cfg : Cfg) (c : Byte) (p : Panel) : Panel :=
  if c = cfg.cmdMemoryWrite then { p with win := p.selected, k := some 0, rx := some (c, []) }
  else if p.midStream then .unknown
  else { p with rx := some (c, []) }

/-- A pixel arrives: it lands at the next raster position; beyond the window, or in an unknown one, all is unknown
(R37). -/
def Panel.place (v : Slot) (p : Panel) : Panel :=
  match p.win, p.k with
  | some w, some k =>
    if k < w.count then
      { p with mem := ((w.x0.toNat + k % w.width, w.y0.toNat + k / w.width), v) :: p.mem, k := some (k + 1) }
    else .unknown
  | _, _ => .unknown

/-- A data byte arrives: in a memory-write transaction every second one completes a pixel (R37). One outside a transaction
the panel follows makes all unknown (log 9). -/
def Panel.data (cfg : Cfg) (b : Byte) (p : Panel) : Panel :=
  match p.rx with
  | none => .unknown
  | some (c, ds) =>
    if c = cfg.cmdMemoryWrite then
      match ds with
      | [] => { p with rx := some (c, [b]) }
      | h :: _ => Panel.place (h ++ b) { p with rx := some (c, []) }
    else { p with rx := some (c, ds ++ [b]) }

/-- Chip select is released: a whole transaction takes its effect (R36). A payload of another length makes all unknown
(log 9), and so does every command R36 does not list (sleep-out, pixel-format-set, display-on, tuning), because what it
does in the panel is not in the source (R36, D33). Memory-access-control leaves only the flags known: how they map logical
coordinates to the panel's memory is not in the source (R41, N15), so neither the pixels nor the window are claimed under
the new mapping, nor under the same one sent again (R40). -/
def Panel.close (cfg : Cfg) (p : Panel) : Panel :=
  match p.rx with
  | none => p
  | some (c, ds) =>
    let q := { p with rx := none }
    if c = cfg.cmdMemoryAccessControl then
      match ds with
      | [f] => { Panel.unknown with flags := some f }
      | _ => .unknown
    else if c = cfg.cmdColumnAddressSet then
      match ds with
      | [a, b, d, e] => { q with cols := some (a ++ b, d ++ e) }
      | _ => .unknown
    else if c = cfg.cmdRowAddressSet then
      match ds with
      | [a, b, d, e] => { q with rows := some (a ++ b, d ++ e) }
      | _ => .unknown
    else if c = cfg.cmdMemoryWrite then
      match ds with
      | [] => q
      | _ => .unknown
    else .unknown

/-- What the panel makes of one event (R36, R37, R38). DESIGN CHOICE (log 17): at a reset pulse the pixels become unknown
too, as R36 and U12 say, where U2 keeps those delivered to a stream the RESET abandons. DESIGN CHOICE (log 18): a wait
changes nothing, whatever the durations, so the view is of a panel for which they suffice (R143, U11). -/
def Panel.observe (cfg : Cfg) (p : Panel) : Event → Panel
  | .rst _ => .unknown
  | .cs false => { p with rx := none }
  | .cs true => p.close cfg
  | .tx false b => p.command cfg b
  | .tx true b => p.data cfg b
  | .txFail _ _ => .unknown
  | .wait _ => p

/-- The panel after the whole trace, unknown at power-on. -/
def panelOf (s : State) : Panel := s.trace.foldl (Panel.observe s.cfg) .unknown

end Sys2Proof.Machine
end

