-- ==== Sys2Proof/Machine/Pseudo.lean ====
section
/-! DEFINITION. The host's pseudo-operations (R63, R110 to R115): sequences of requests, each a full PXF step, stopped at
the first error. They add no state and no opcode to PXF; the frame buffer is the host's, held beside PXF in Driver (R115, R153). -/

namespace Sys2Proof.Machine

/-- The last response of the history. -/
def lastResponse (s : State) : Response := (s.rsps.getLast?).getD ⟨.ok, 0⟩

/-- Issue one request and let PXF execute it (R9, R110). -/
def issue (i : Instr) (s : State) : State :=
  match step (present (encode i) s) with
  | .next t => t
  | .fault _ => s
  | .refused _ => s

/-- Issue requests in order, stopping after the first that returns an error (R110). -/
def issueAll : List Instr → State → State
  | [], s => s
  | i :: rest, s =>
    let t := issue i s
    if (lastResponse t).err = .ok then issueAll rest t else t

/-- `SCREEN_WIDTH` and the state after it (R112). -/
def screenWidth (s : State) : Slot × State :=
  let t := issue .getScreenSize s
  ((lastResponse t).res.extractLsb' 16 16, t)

/-- `SCREEN_HEIGHT` and the state after it (R112). -/
def screenHeight (s : State) : Slot × State :=
  let t := issue .getScreenSize s
  ((lastResponse t).res.extractLsb' 0 16, t)

/-! ### The frame buffer and the driver that owns it -/

/-- The host's frame buffer `FB`, row-major: the cell of pixel `(x, y)` has index `y * EW + x` (R115). -/
structure FrameBuffer where
  /-- How many times the contents have become unspecified since construction (the model's own counter, log 10). -/
  losses : Nat
  cells  : List Slot
  deriving DecidableEq, Repr

/-- A cell of the frame buffer; a free value past the cells it holds (R115, U13). -/
def FrameBuffer.cell (fb : FrameBuffer) (k : Nat) : Slot := fb.cells.getD k (Config.freshCell fb.losses k)

/-- `EW * EH` cells whose contents are unspecified (R111, R115). -/
def FrameBuffer.fresh (losses : Nat) (ew eh : Slot) : FrameBuffer :=
  ⟨losses, (List.range (ew.toNat * eh.toNat)).map (Config.freshCell losses)⟩

/-- Overwrite the first cells, in order. -/
def FrameBuffer.overwrite (vs : List Slot) (fb : FrameBuffer) : FrameBuffer :=
  { fb with cells := vs ++ fb.cells.drop vs.length }

/-- What CONSTRUCT hands the host: PXF and the host's frame buffer for it (R111, R115). -/
structure Driver where
  pxf : State
  fb  : FrameBuffer
  deriving DecidableEq, Repr

/-- The driver once PXF has come to a state: a change of `EW` leaves the frame buffer's contents unspecified (R115). -/
def Driver.follow (d : Driver) (t : State) : Driver :=
  ⟨t, if t.ew = d.pxf.ew then d.fb else .fresh (d.fb.losses + 1) t.ew t.eh⟩

/-- Issue one request through the driver; the host's `setOrientation` is SET_ORIENTATION issued so (R110). -/
def Driver.issue (i : Instr) (d : Driver) : Driver := d.follow (Sys2Proof.Machine.issue i d.pxf)

/-! ### CONSTRUCT, DRAW_PIXEL_SOURCE, SEND_FRAME -/

/-- `CONSTRUCT` (R111): RESET, then SET_ORIENTATION NP, then `EW * EH` cells; the state, and the frame buffer unless an
error ended it, which the last response of the state then names. -/
def construct (s : State) : State × Option FrameBuffer :=
  let t := issueAll [.reset, .setOrientation .np] s
  (t, if (lastResponse t).err = .ok then some (.fresh 0 t.ew t.eh) else none)

/-- The external pixel source with its colour channels extracted by the host, row-major (R113). -/
structure PixelSource where
  width  : Nat
  height : Nat
  pixels : List Rgb
  deriving DecidableEq, Repr

/-- One ENCODE per pixel, stopped at an error; the packed colours in order, and the state after (R113). -/
def encodePixels : List Rgb → State → List Slot × State
  | [], s => ([], s)
  | c :: rest, s =>
    let t := issue (.encode c.r c.g c.b) s
    if (lastResponse t).err = .ok then
      let (vs, u) := encodePixels rest t
      ((lastResponse t).res.setWidth 16 :: vs, u)
    else ([], t)

/-- `DRAW_PIXEL_SOURCE src` (R113): no result for a source that is not exactly the screen's size (U13). -/
def drawPixelSource (src : PixelSource) (d : Driver) : Option Driver :=
  if src.width = d.pxf.ew.toNat ∧ src.height = d.pxf.eh.toNat ∧ src.pixels.length = src.width * src.height then
    some (⟨(encodePixels src.pixels d.pxf).2, d.fb.overwrite (encodePixels src.pixels d.pxf).1⟩)
  else none

/-- The requests of SEND_FRAME and the state they end in (R114). -/
def streamFrame (fb : FrameBuffer) (s : State) : State :=
  let t := issue .getScreenSize s
  if (lastResponse t).err = .ok then
    let ew : Slot := (lastResponse t).res.extractLsb' 16 16
    let eh : Slot := (lastResponse t).res.extractLsb' 0 16
    issueAll (.setWindow 0 0 (ew - 1) (eh - 1) ::
      (List.range (ew.toNat * eh.toNat)).map fun k => .streamPixel (fb.cell k)) t
  else t

/-- `SEND_FRAME full` (R114): the full window, then every cell of the frame buffer in order. The flag is ignored (U6). -/
def sendFrame (_full : Bool) (d : Driver) : Driver := d.follow (streamFrame d.fb d.pxf)

end Sys2Proof.Machine
end

