-- ==== Sys2Proof/Safety.lean ====
section
/-! DEFINITION. The terms claims use: a configuration that keeps the source's constraints, complete and clean runs, the
invariants of R22 and R46, the closed forms of event lists, and the tables of R90, R98 and R128 as functions. No step
uses them. -/

namespace Sys2Proof

open Machine

/-! ### Configurations -/

/-- `INIT_SEQ` holds a `Cmd` step with a given command byte. -/
def hasCommand (c : Byte) (steps : List InitStep) : Bool :=
  steps.any fun st => match st with
    | .cmd c' _ => c' == c
    | .wait _ => false

/-- The constraints on `FLAGS_TABLE` (R81): bits 1:0 zero, one colour-channel-order bit for all. -/
def FlagsTable.wf (t : FlagsTable) : Bool :=
  let fs := [t.np, t.nl, t.fp, t.fl]
  fs.all (fun f => f.extractLsb' 0 2 == 0) && fs.all (fun f => colorChannelOrder f == colorChannelOrder t.np)

/-- The seven command bytes (R6). -/
def Cfg.commandBytes (c : Cfg) : List Byte :=
  [c.cmdSleepOut, c.cmdPixelFormatSet, c.cmdDisplayOn, c.cmdMemoryAccessControl, c.cmdColumnAddressSet,
    c.cmdRowAddressSet, c.cmdMemoryWrite]

/-- The constraints on `Cfg` the spec states (R6, R59, R81). -/
def Cfg.wf (c : Cfg) : Bool :=
  decide (c.sx ≠ 0) && decide (c.sy ≠ 0) && decide c.commandBytes.Nodup && c.flagsTable.wf
    && hasCommand c.cmdSleepOut c.initSeq && hasCommand c.cmdPixelFormatSet c.initSeq
    && hasCommand c.cmdDisplayOn c.initSeq

end Sys2Proof

namespace Sys2Proof.Machine

/-! ### Runs -/

/-- The run so far is complete (R152). -/
def State.complete (s : State) : Prop := s.phase = .ready

/-- The run so far is clean (R152). -/
def State.clean (s : State) : Prop := s.complete ∧ ∀ r ∈ s.rsps, r.err = .ok

/-! ### The environment, as hypotheses -/

/-- The next `n` byte writes succeed. -/
def State.channelOk (s : State) (n : Nat) : Bool := (List.range n).all s.chanAnswer

/-- The next `j` byte writes succeed and the one after them fails. -/
def State.channelFailsAt (s : State) (j : Nat) : Bool := s.channelOk j && !s.chanAnswer j

/-! ### Event lists -/

/-- The events of one transaction (R32). -/
def commandEvents (c : Byte) (ds : List Byte) : List Event :=
  [.cs false, .tx false c] ++ ds.map (.tx true) ++ [.cs true]

/-- The events of an init sequence (R91). -/
def initEvents : List InitStep → List Event
  | [] => []
  | .cmd c ds :: rest => commandEvents c ds ++ initEvents rest
  | .wait n :: rest => .wait n :: initEvents rest

/-- The events of the reset pulse (R91). -/
def pulseEvents : List Event := [.rst false, .wait .resetHold, .rst true, .wait .resetSettle]

/-- The sixteen events of SET_WINDOW (R94). -/
def windowEvents (c : Cfg) (x0 y0 x1 y1 : Slot) : List Event :=
  commandEvents c.cmdColumnAddressSet (boundsPayload x0 x1) ++
  commandEvents c.cmdRowAddressSet (boundsPayload y0 y1) ++
  [.cs false, .tx false c.cmdMemoryWrite]

/-- The two byte events of a pixel (R34, R95). -/
def pixelEvents (p : Slot) : List Event := [.tx true p.lowByte, .tx true p.highByte]

/-- The event is a byte written successfully. -/
def Event.isTx : Event → Bool
  | .tx _ _ => true
  | .txFail _ _ => false
  | .rst _ => false
  | .cs _ => false
  | .wait _ => false

/-- How many bytes a list of events writes successfully. -/
def byteCount (es : List Event) : Nat := es.countP Event.isTx

/-- A list of events cut short by the failure of its byte of a given number, counting from 0: the events before that byte, its
`TXFAIL`, and the release of chip select (R99). -/
def cutAt : Nat → List Event → List Event
  | _, [] => []
  | 0, .tx d b :: _ => [.txFail d b, .cs true]
  | n + 1, .tx d b :: es => .tx d b :: cutAt n es
  | n, .rst v :: es => .rst v :: cutAt n es
  | n, .cs v :: es => .cs v :: cutAt n es
  | n, .wait m :: es => .wait m :: cutAt n es
  | n, .txFail d b :: es => .txFail d b :: cutAt n es

/-- The data/command level after a list of events: that of its last byte, else the level before. -/
def dcAfter (d : Option Bool) : List Event → Option Bool
  | [] => d
  | .tx v _ :: es => dcAfter (some v) es
  | .txFail v _ :: es => dcAfter (some v) es
  | .rst _ :: es => dcAfter d es
  | .cs _ :: es => dcAfter d es
  | .wait _ :: es => dcAfter d es

/-- The state after a channel failure at byte `j` of an operation whose whole event list is `es` (R99, R121, R124). -/
def afterFailure (e : Err) (es : List Event) (j : Nat) (s : State) : State :=
  { s with
    phase := .corrupt
    rem := 0
    csN := true
    dc := dcAfter s.dc (cutAt j es)
    trace := s.trace ++ cutAt j es
    chan := s.chan.skip (j + 1)
    rsps := s.rsps ++ [⟨e, 0⟩] }

/-- The events of a RESET from a state: `CS(1)` first where a transaction is open, the pulse, the init sequence (R91). -/
def resetEvents (s : State) : List Event :=
  (if s.csN then [] else [.cs true]) ++ pulseEvents ++ initEvents s.cfg.initSeq

/-! ### The tables of the framer as functions -/

/-- Admission by phase (R98). -/
def admitted : Instr → Phase → Bool
  | .setOrientation _, p => p == .ready
  | .setWindow _ _ _ _, p => p == .ready
  | .streamPixel _, p => p == .streaming
  | .encode _ _ _, _ => true
  | .decode _, _ => true
  | .nearlyEqual _ _ _, _ => true
  | .flagsFor _, _ => true
  | .effectiveSize _ _ _, _ => true
  | .getScreenSize, _ => true
  | .reset, _ => true
  | .getStatus, _ => true
  | .getRemaining, _ => true

/-- How many bytes an operation writes when none fails. -/
def bytesSent (c : Cfg) : Instr → Nat
  | .reset => byteCount (initEvents c.initSeq)
  | .setOrientation _ => 2
  | .setWindow _ _ _ _ => 11
  | .streamPixel _ => 2
  | .encode _ _ _ => 0
  | .decode _ => 0
  | .nearlyEqual _ _ _ => 0
  | .flagsFor _ => 0
  | .effectiveSize _ _ _ => 0
  | .getScreenSize => 0
  | .getStatus => 0
  | .getRemaining => 0

/-- The error of an operation's own precondition, if it fails (R128, item 3). -/
def preconditionError (s : State) : Instr → Option Err
  | .reset => if s.pinsOk then none else some .initializationError
  | .setWindow x0 y0 x1 y1 => if insideScreen s.ew s.eh x0 y0 x1 y1 then none else some .invalidGeometry
  | .setOrientation _ => none
  | .streamPixel _ => none
  | .encode _ _ _ => none
  | .decode _ => none
  | .nearlyEqual _ _ _ => none
  | .flagsFor _ => none
  | .effectiveSize _ _ _ => none
  | .getScreenSize => none
  | .getStatus => none
  | .getRemaining => none

/-- The error a channel failure is reported as (R99). -/
def channelError (i : Instr) : Err := if i = .reset then .initializationError else .transportError

/-- The one error a request reports, by the order of R128. -/
def reportedError (s : State) (w : ReqWord) : Err :=
  match decode w with
  | .error _ => .illegalRequest
  | .ok i =>
    if admitted i s.phase then
      match preconditionError s i with
      | some e => e
      | none => if s.channelOk (bytesSent s.cfg i) then .ok else channelError i
    else .sequenceError

/-- The phase after an operation, by the table of R90, from the state before it and the error it reported. -/
def phaseAfter (s : State) (i : Instr) (e : Err) : Phase :=
  match i, e with
  | .reset, .ok => .ready
  | .reset, .initializationError => if s.pinsOk then .corrupt else s.phase
  | .setOrientation _, .ok => .ready
  | .setOrientation _, .transportError => .corrupt
  | .setWindow _ _ _ _, .ok => .streaming
  | .setWindow _ _ _ _, .transportError => .corrupt
  | .streamPixel _, .ok => if s.rem = 1 then .ready else .streaming
  | .streamPixel _, .transportError => .corrupt
  | _, _ => s.phase

/-! ### Invariants -/

/-- The invariants of R22 that speak of the registers, for a configuration that keeps the source's constraints. -/
structure Inv (s : State) : Prop where
  cfg_wf : s.cfg.wf = true
  streaming_iff_rem : s.phase = .streaming ↔ 0 < s.rem.toNat
  streaming_iff_cs : s.phase = .streaming ↔ s.csN = false
  streaming_dc : s.phase = .streaming → s.dc = some true
  geometry : (s.ew, s.eh) = effectiveSize s.cfg.sx s.cfg.sy s.orient
  rem_le : s.rem.toNat ≤ s.ew.toNat * s.eh.toNat
  driven : s.phase ≠ .uninit → s.rstN = some true ∧ s.dc ≠ none

/-- Where a trace stands with respect to the framing rule R46. -/
inductive Frame where
  /-- Chip select is released. -/
  | idle
  /-- Chip select is asserted and no byte has been sent. -/
  | opened
  /-- The command byte has been sent. -/
  | body
  /-- A byte has failed and chip select has not been released yet. -/
  | broken
  /-- The framing rule has been violated. -/
  | bad
  deriving DecidableEq, Repr

/-- The framing rule R46, event by event; after a `TXFAIL` only the release of chip select may follow (R99). -/
def Frame.next : Frame → Event → Frame
  | .idle, .cs false => .opened
  | .idle, .rst _ => .idle
  | .idle, .wait _ => .idle
  | .opened, .tx false _ => .body
  | .opened, .txFail false _ => .broken
  | .body, .tx true _ => .body
  | .body, .txFail true _ => .broken
  | .body, .cs true => .idle
  | .broken, .cs true => .idle
  | _, _ => .bad

/-- Where a whole trace stands. -/
def frameOf (es : List Event) : Frame := es.foldl Frame.next .idle

/-- The trace keeps the framing rule, and a transaction is open exactly while chip select is asserted (R16, R46). -/
def Framed (s : State) : Prop := frameOf s.trace = if s.csN then .idle else .body

end Sys2Proof.Machine
end

