-- ==== Sys2Proof/Certificates/Slice0/Obligations.lean ====
section
/-! DEFINITION. The statements for the provers. Each docstring names the rule of spec/ it formalises. -/

open Sys2Proof Sys2Proof.Machine

/-! ### Encodings -/

/-- Request words written out from R50 and R53 decode to the operations they stand for. -/
def Obligations.WordsOfTheSpecDecode : Prop :=
  decode 0x010012003400560000 = .ok (.encode 0x12 0x34 0x56) ∧
  decode 0x0226CB000000000000 = .ok (.decode 0x26CB) ∧
  decode 0x0326CB26D300080000 = .ok (.nearlyEqual 0x26CB 0x26D3 8) ∧
  decode 0x100001000000000000 = .ok (.flagsFor .nl) ∧
  decode 0x11012C00C800030000 = .ok (.effectiveSize 300 200 .fl) ∧
  decode 0x120000000000000000 = .ok .getScreenSize ∧
  decode 0x200000000000000000 = .ok .reset ∧
  decode 0x210002000000000000 = .ok (.setOrientation .fp) ∧
  decode 0x2200000000013F00EF = .ok (.setWindow 0 0 319 239) ∧
  decode 0x23AA11000000000000 = .ok (.streamPixel 0xAA11) ∧
  decode 0x240000000000000000 = .ok .getStatus ∧
  decode 0x250000000000000000 = .ok .getRemaining

/-- Decoding an encoded operation gives it back, with every operand at every value (R50, R51, R53, R54). -/
def Obligations.DecodeOfEncodeIsTheOperation : Prop :=
  ∀ i : Instr, decode (encode i) = .ok i

/-- A word that decodes is the encoding of what it decodes to: no operation has two words (R54, R55). -/
def Obligations.EncodeOfDecodeIsTheWord : Prop :=
  ∀ (w : ReqWord) (i : Instr), decode w = .ok i → encode i = w

/-- R54: a word selects a row of the match/mask table exactly where it decodes to the operation of that row. -/
def Obligations.TableRowSelectsItsOperation : Prop :=
  ∀ (w : ReqWord), ∀ t ∈ opcodeTable,
    t.selects w = true ↔ ∃ i : Instr, decode w = .ok i ∧ i.mnemonic = t.mnemonic

/-- R55, R125: a request that matches no row is refused with IllegalRequest and changes nothing else. That the request
is taken from a list in the state is the model's form of R44's acceptance (log 4). -/
def Obligations.IllegalWordIsRefused : Prop :=
  ∀ (s : State) (w : ReqWord) (rest : List ReqWord), s.requests = w :: rest → w.WellFormed = false →
    step s = .next { s with requests := rest, rsps := s.rsps ++ [⟨.illegalRequest, 0⟩] }

/-- One step executes the oldest request presented, in the state without it (R9, R44). -/
def Obligations.StepExecutesTheDecodedRequest : Prop :=
  ∀ (s : State) (w : ReqWord) (rest : List ReqWord) (i : Instr), s.requests = w :: rest → decode w = .ok i →
    step s = exec i { s with requests := rest }

/-- A table word stored where the step fetches is executed by the very next step (the interface's convention, log 4). -/
def Obligations.StepExecutesTheStoredTableWord : Prop :=
  ∀ (s : State) (nbits w : Nat) (i : Instr), decodeTableWord nbits w = some i →
    step (s.withFetchWord nbits w) = exec i s

/-- With no request presented a step changes nothing (R127 "Nothing happens in PXF between requests", R140). -/
def Obligations.NothingHappensWithoutARequest : Prop :=
  ∀ s : State, s.requests = [] → step s = .next s

/-- R57: the codes of the errors, and no other code; with the fields of the response word (R52). -/
def Obligations.ErrorCodesAndResponseFields : Prop :=
  Err.ok.code = 0 ∧ Err.initializationError.code = 1 ∧ Err.invalidGeometry.code = 2 ∧ Err.transportError.code = 3 ∧
  Err.illegalRequest.code = 4 ∧ Err.sequenceError.code = 5 ∧ (∀ e : Err, e.code.toNat ≤ 5) ∧
  ∀ r : Response, r.word.extractLsb' 32 8 = r.err.code ∧ r.word.extractLsb' 0 32 = r.res

/-- Every operation adds exactly one response, whose result is 0 where it reports an error (R9, R52, R121). -/
def Obligations.OneResponsePerOperation : Prop :=
  ∀ (i : Instr) (s t : State), exec i s = .next t →
    ∃ r : Response, t.rsps = s.rsps ++ [r] ∧ (r.err ≠ .ok → r.res = 0)

/-! ### The codec unit -/

/-- R71: ENCODE answers the packed colour, field by field as R70 places them, in every phase, and changes nothing else;
its words are those of R53 and R54. -/
def Obligations.EncodeAnswersThePackedColour : Prop :=
  (∀ (r g b : Byte) (s : State), ∃ P : Slot,
    P.extractLsb' 13 3 = g.extractLsb' 2 3 ∧ P.extractLsb' 8 5 = b.extractLsb' 3 5 ∧
    P.extractLsb' 3 5 = r.extractLsb' 3 5 ∧ P.extractLsb' 0 3 = g.extractLsb' 5 3 ∧
    exec (.encode r g b) s = .next { s with rsps := s.rsps ++ [⟨.ok, 0#16 ++ P⟩] }) ∧
  ∀ A B C D : Slot, decode (0x01#8 ++ A ++ B ++ C ++ D : ReqWord) =
    if A.extractLsb' 8 8 = 0 ∧ B.extractLsb' 8 8 = 0 ∧ C.extractLsb' 8 8 = 0 ∧ D = 0 then
      .ok (.encode (A.extractLsb' 0 8) (B.extractLsb' 0 8) (C.extractLsb' 0 8))
    else .error (.reservedBitsSet 0x01)

/-- R72: DECODE answers the widened channels of a packed colour, in every phase, and changes nothing else; its words are
those of R53 and R54. The fields of the packed colour are where R70 places them. -/
def Obligations.DecodeAnswersTheWidenedChannels : Prop :=
  (∀ (p : Slot) (s : State) (r5 b5 : BitVec 5) (g6 : BitVec 6) (r g b : Byte),
    r5 = p.extractLsb' 3 5 → g6 = p.extractLsb' 0 3 ++ p.extractLsb' 13 3 → b5 = p.extractLsb' 8 5 →
    r = (if r5 = 31 then 0xFF else r5 ++ 0#3) → g = (if g6 = 63 then 0xFF else g6 ++ 0#2) →
    b = (if b5 = 31 then 0xFF else b5 ++ 0#3) →
    exec (.decode p) s = .next { s with rsps := s.rsps ++ [⟨.ok, 0x00#8 ++ r ++ g ++ b⟩] }) ∧
  ∀ A B C D : Slot, decode (0x02#8 ++ A ++ B ++ C ++ D : ReqWord) =
    if B = 0 ∧ C = 0 ∧ D = 0 then .ok (.decode A) else .error (.reservedBitsSet 0x02)

/-- R73: NEARLY_EQUAL answers 1 for equal colours and for colours whose decoded channels differ within the tolerance, the
green one against the shifted tolerance, else 0; its words are those of R53 and R54. -/
def Obligations.NearlyEqualComparesDecodedChannels : Prop :=
  (∀ (pa pb : Slot) (tol : Byte) (s : State),
    exec (.nearlyEqual pa pb tol) s = .next { s with
      rsps := s.rsps ++ [⟨.ok,
        if pa = pb ∨
          (|((unpackColor pa).r.toNat : Int) - (unpackColor pb).r.toNat| ≤ tol.toNat ∧
           |((unpackColor pa).g.toNat : Int) - (unpackColor pb).g.toNat| ≤ (tol.toNat / 2 ^ s.cfg.tolGShift : Nat) ∧
           |((unpackColor pa).b.toNat : Int) - (unpackColor pb).b.toNat| ≤ tol.toNat)
        then 1 else 0⟩] }) ∧
  ∀ A B C D : Slot, decode (0x03#8 ++ A ++ B ++ C ++ D : ReqWord) =
    if C.extractLsb' 8 8 = 0 ∧ D = 0 then .ok (.nearlyEqual A B (C.extractLsb' 0 8))
    else .error (.reservedBitsSet 0x03)

/-- R74: the five laws of the codec. -/
def Obligations.CodecLaws : Prop :=
  (∀ c : Rgb,
    (c.r = 0 → (unpackColor (packColor c)).r = 0) ∧ (c.r = 255 → (unpackColor (packColor c)).r = 255) ∧
    (c.g = 0 → (unpackColor (packColor c)).g = 0) ∧ (c.g = 255 → (unpackColor (packColor c)).g = 255) ∧
    (c.b = 0 → (unpackColor (packColor c)).b = 0) ∧ (c.b = 255 → (unpackColor (packColor c)).b = 255)) ∧
  (∀ c : Rgb,
    |((unpackColor (packColor c)).r.toNat : Int) - c.r.toNat| ≤ 7 ∧
    |((unpackColor (packColor c)).g.toNat : Int) - c.g.toNat| ≤ 3 ∧
    |((unpackColor (packColor c)).b.toNat : Int) - c.b.toNat| ≤ 7) ∧
  (∀ c : Rgb, packColor (unpackColor (packColor c)) = packColor c) ∧
  ((∀ p : Slot, packColor (unpackColor p) = p) ∧ Function.Injective unpackColor ∧ Function.Surjective packColor) ∧
  (∀ c : Rgb,
    ((248 ≤ c.r.toNat ∧ c.r.toNat ≤ 254 → c.r.toNat < (unpackColor (packColor c)).r.toNat) ∧
      (¬(248 ≤ c.r.toNat ∧ c.r.toNat ≤ 254) → (unpackColor (packColor c)).r.toNat ≤ c.r.toNat)) ∧
    ((252 ≤ c.g.toNat ∧ c.g.toNat ≤ 254 → c.g.toNat < (unpackColor (packColor c)).g.toNat) ∧
      (¬(252 ≤ c.g.toNat ∧ c.g.toNat ≤ 254) → (unpackColor (packColor c)).g.toNat ≤ c.g.toNat)) ∧
    ((248 ≤ c.b.toNat ∧ c.b.toNat ≤ 254 → c.b.toNat < (unpackColor (packColor c)).b.toNat) ∧
      (¬(248 ≤ c.b.toNat ∧ c.b.toNat ≤ 254) → (unpackColor (packColor c)).b.toNat ≤ c.b.toNat)))

/-- R75: the response of a codec operation is a function of the request alone, and of `TOL_G_SHIFT` for NEARLY_EQUAL, in
every phase; nothing but the response history changes. -/
def Obligations.CodecOperationsArePure : Prop :=
  (∀ r g b : Byte, ∃ v : Word, ∀ s : State,
    exec (.encode r g b) s = .next { s with rsps := s.rsps ++ [⟨.ok, v⟩] }) ∧
  (∀ p : Slot, ∃ v : Word, ∀ s : State,
    exec (.decode p) s = .next { s with rsps := s.rsps ++ [⟨.ok, v⟩] }) ∧
  ∀ (pa pb : Slot) (tol : Byte) (shift : Nat), ∃ v : Word, ∀ s : State, s.cfg.tolGShift = shift →
    exec (.nearlyEqual pa pb tol) s = .next { s with rsps := s.rsps ++ [⟨.ok, v⟩] }

/-! ### The orientation unit -/

/-- R83: FLAGS_FOR answers the configured table's byte for the orientation, in every phase, sends nothing and changes
nothing else; its words are those of R53 and R54. -/
def Obligations.FlagsForAnswersTheTableByte : Prop :=
  (∀ s : State,
    exec (.flagsFor .np) s = .next { s with rsps := s.rsps ++ [⟨.ok, 0#24 ++ s.cfg.flagsTable.np⟩] } ∧
    exec (.flagsFor .nl) s = .next { s with rsps := s.rsps ++ [⟨.ok, 0#24 ++ s.cfg.flagsTable.nl⟩] } ∧
    exec (.flagsFor .fp) s = .next { s with rsps := s.rsps ++ [⟨.ok, 0#24 ++ s.cfg.flagsTable.fp⟩] } ∧
    exec (.flagsFor .fl) s = .next { s with rsps := s.rsps ++ [⟨.ok, 0#24 ++ s.cfg.flagsTable.fl⟩] }) ∧
  ∀ A B C D : Slot, decode (0x10#8 ++ A ++ B ++ C ++ D : ReqWord) =
    if A.extractLsb' 2 14 = 0 ∧ B = 0 ∧ C = 0 ∧ D = 0 then .ok (.flagsFor (.ofBits (A.extractLsb' 0 2)))
    else .error (.reservedBitsSet 0x10)

/-- R81: of any configuration that keeps the source's constraints, bits 1:0 of every flags byte are zero and the
colour-channel-order bit (bit 3) is the same in all four. -/
def Obligations.FlagsTableKeepsTheSourceConstraints : Prop :=
  ∀ c : Cfg, c.wf = true → ∀ o o' : Orientation,
    (flagsOf c.flagsTable o).extractLsb' 0 2 = 0 ∧
    (flagsOf c.flagsTable o).getLsbD 3 = (flagsOf c.flagsTable o').getLsbD 3

/-- The default configuration of the test vectors keeps the constraints (R6, R59, R81, R82, R92), for every native size
R6 allows. -/
def Obligations.StandardConfigurationIsWellFormed : Prop :=
  ∀ (sx sy : Slot) (d : Durations), sx ≠ 0 → sy ≠ 0 → (Cfg.standard sx sy d).wf = true

/-- R85 and R84: EFFECTIVE_SIZE answers the pair for the portrait orientations and the swapped pair for the landscape
ones, in every phase, and changes nothing else; its words are those of R53 and R54. -/
def Obligations.EffectiveSizeSwapsForLandscape : Prop :=
  (∀ (w h : Slot) (s : State),
    exec (.effectiveSize w h .np) s = .next { s with rsps := s.rsps ++ [⟨.ok, w ++ h⟩] } ∧
    exec (.effectiveSize w h .nl) s = .next { s with rsps := s.rsps ++ [⟨.ok, h ++ w⟩] } ∧
    exec (.effectiveSize w h .fp) s = .next { s with rsps := s.rsps ++ [⟨.ok, w ++ h⟩] } ∧
    exec (.effectiveSize w h .fl) s = .next { s with rsps := s.rsps ++ [⟨.ok, h ++ w⟩] }) ∧
  ∀ A B C D : Slot, decode (0x11#8 ++ A ++ B ++ C ++ D : ReqWord) =
    if C.extractLsb' 2 14 = 0 ∧ D = 0 then .ok (.effectiveSize A B (.ofBits (C.extractLsb' 0 2)))
    else .error (.reservedBitsSet 0x11)

/-- R86: GET_SCREEN_SIZE answers `EW ++ EH` in every phase and changes nothing else; in a state that keeps the invariants
that is the effective size of the native dimensions; its words are those of R53 and R54. -/
def Obligations.GetScreenSizeAnswersTheCachedSize : Prop :=
  (∀ s : State, exec .getScreenSize s = .next { s with rsps := s.rsps ++ [⟨.ok, s.ew ++ s.eh⟩] }) ∧
  (∀ s : State, Inv s → s.ew ++ s.eh =
    (effectiveSize s.cfg.sx s.cfg.sy s.orient).1 ++ (effectiveSize s.cfg.sx s.cfg.sy s.orient).2) ∧
  ∀ A B C D : Slot, decode (0x12#8 ++ A ++ B ++ C ++ D : ReqWord) =
    if A = 0 ∧ B = 0 ∧ C = 0 ∧ D = 0 then .ok .getScreenSize else .error (.reservedBitsSet 0x12)

/-! ### The framer unit: read-backs -/

/-- R96: GET_STATUS answers `CS_N`, `ORIENT` and `PHASE` in their fields, the rest 0, in every phase, and changes nothing
else; its words are those of R53 and R54. -/
def Obligations.GetStatusAnswersItsFields : Prop :=
  (∀ s : State, ∃ v : Word,
    v.extractLsb' 0 2 = s.phase.bits ∧ v.extractLsb' 2 2 = s.orient.bits ∧ v.getLsbD 4 = s.csN ∧
    v.extractLsb' 5 27 = 0 ∧
    exec .getStatus s = .next { s with rsps := s.rsps ++ [⟨.ok, v⟩] }) ∧
  ∀ A B C D : Slot, decode (0x24#8 ++ A ++ B ++ C ++ D : ReqWord) =
    if A = 0 ∧ B = 0 ∧ C = 0 ∧ D = 0 then .ok .getStatus else .error (.reservedBitsSet 0x24)

/-- R97: GET_REMAINING answers `REM` in every phase and changes nothing else; `REM` is 0 in every phase but STREAMING, in
a state that keeps the invariants; its words are those of R53 and R54. -/
def Obligations.GetRemainingAnswersRem : Prop :=
  (∀ s : State, exec .getRemaining s = .next { s with rsps := s.rsps ++ [⟨.ok, s.rem⟩] }) ∧
  (∀ s : State, Inv s → s.phase ≠ .streaming → s.rem = 0) ∧
  ∀ A B C D : Slot, decode (0x25#8 ++ A ++ B ++ C ++ D : ReqWord) =
    if A = 0 ∧ B = 0 ∧ C = 0 ∧ D = 0 then .ok .getRemaining else .error (.reservedBitsSet 0x25)

/-! ### The framer unit: RESET -/

/-- R91: from any state, a RESET whose pin test passes and whose bytes all succeed closes an open transaction, pulses the
reset pin, replays the init sequence, and ends READY with nothing owed; `ORIENT`, `EW`, `EH` keep their values. -/
def Obligations.ResetPulsesAndInitialises : Prop :=
  ∀ s : State, s.pinsOk = true → s.channelOk (byteCount (initEvents s.cfg.initSeq)) = true →
    exec .reset s = .next { s with
      phase := .ready
      rem := 0
      csN := true
      dc := dcAfter s.dc (initEvents s.cfg.initSeq)
      rstN := some true
      trace := s.trace ++ (if s.csN = false then [.cs true] else []) ++
        [.rst false, .wait .resetHold, .rst true, .wait .resetSettle] ++ initEvents s.cfg.initSeq
      pins := s.pins.skip 1
      chan := s.chan.skip (byteCount (initEvents s.cfg.initSeq))
      rsps := s.rsps ++ [⟨.ok, 0⟩] }

/-- R122, R120: a RESET with `PINS_OK = 0` reports InitializationError and touches nothing: no event, no register; it
consumes the sample of `PINS_OK` and no answer of the channel oracle. -/
def Obligations.ResetWithoutPinsTouchesNothing : Prop :=
  ∀ s : State, s.pinsOk = false →
    exec .reset s = .next { s with pins := s.pins.skip 1, rsps := s.rsps ++ [⟨.initializationError, 0⟩] }

/-- R91, R122, R99: a RESET whose byte `j` fails keeps the events before that byte, then `TXFAIL` and `CS(1)`; it reports
InitializationError and ends CORRUPT with `RST_N = 1`. -/
def Obligations.ResetCutByAFailingByte : Prop :=
  ∀ (s : State) (j : Nat), s.pinsOk = true → j < byteCount (initEvents s.cfg.initSeq) → s.channelFailsAt j = true →
    exec .reset s = .next
      (afterFailure .initializationError (resetEvents s) j { s with rstN := some true, pins := s.pins.skip 1 })

/-! ### The framer unit: the operations of an open panel -/

/-- R93: SET_ORIENTATION in READY, both bytes succeeding, sends the memory-access-control transaction with the table's
byte and caches the orientation and its effective size. -/
def Obligations.SetOrientationSendsThenCaches : Prop :=
  ∀ (o : Orientation) (s : State), s.phase = .ready → s.csN = true → s.channelOk 2 = true →
    exec (.setOrientation o) s = .next { s with
      dc := some true
      orient := o
      ew := (effectiveSize s.cfg.sx s.cfg.sy o).1
      eh := (effectiveSize s.cfg.sx s.cfg.sy o).2
      trace := s.trace ++ [.cs false, .tx false s.cfg.cmdMemoryAccessControl, .tx true (flagsOf s.cfg.flagsTable o),
        .cs true]
      chan := s.chan.skip 2
      rsps := s.rsps ++ [⟨.ok, 0⟩] }

/-- R94, R100: SET_WINDOW in READY with bounds inside the screen, all eleven bytes succeeding, emits the sixteen events,
leaves the memory-write transaction open, and owes exactly the window's pixels. -/
def Obligations.SetWindowOpensTheStream : Prop :=
  ∀ (x0 y0 x1 y1 : Slot) (s : State), s.phase = .ready → s.csN = true →
    x0.toNat ≤ x1.toNat → x1.toNat < s.ew.toNat → y0.toNat ≤ y1.toNat → y1.toNat < s.eh.toNat →
    s.channelOk 11 = true →
    ∃ n : Word, n.toNat = (x1.toNat - x0.toNat + 1) * (y1.toNat - y0.toNat + 1) ∧
      exec (.setWindow x0 y0 x1 y1) s = .next { s with
        phase := .streaming
        rem := n
        csN := false
        dc := some true
        trace := s.trace ++
          [.cs false, .tx false s.cfg.cmdColumnAddressSet, .tx true (x0.extractLsb' 8 8), .tx true (x0.extractLsb' 0 8),
           .tx true (x1.extractLsb' 8 8), .tx true (x1.extractLsb' 0 8), .cs true,
           .cs false, .tx false s.cfg.cmdRowAddressSet, .tx true (y0.extractLsb' 8 8), .tx true (y0.extractLsb' 0 8),
           .tx true (y1.extractLsb' 8 8), .tx true (y1.extractLsb' 0 8), .cs true,
           .cs false, .tx false s.cfg.cmdMemoryWrite]
        chan := s.chan.skip 11
        rsps := s.rsps ++ [⟨.ok, n⟩] }

/-- R123: SET_WINDOW in READY with a bound outside the cached screen reports InvalidGeometry without touching the
channel; nothing changes and the phase stays READY. -/
def Obligations.SetWindowOutsideTheScreenIsRefused : Prop :=
  ∀ (x0 y0 x1 y1 : Slot) (s : State), s.phase = .ready →
    ¬(x0.toNat ≤ x1.toNat ∧ x1.toNat < s.ew.toNat ∧ y0.toNat ≤ y1.toNat ∧ y1.toNat < s.eh.toNat) →
    exec (.setWindow x0 y0 x1 y1) s = .next { s with rsps := s.rsps ++ [⟨.invalidGeometry, 0⟩] }

/-- R95: STREAM_PIXEL with the stream open and pixels owed, both bytes succeeding, sends the packed value's low byte then
its high byte and owes one pixel less; the last pixel closes the transaction and ends READY. -/
def Obligations.StreamPixelSendsAndCounts : Prop :=
  ∀ (p : Slot) (s : State), s.phase = .streaming → s.csN = false → 0 < s.rem.toNat → s.channelOk 2 = true →
    (1 < s.rem.toNat → ∃ n : Word, n.toNat = s.rem.toNat - 1 ∧
      exec (.streamPixel p) s = .next { s with
        rem := n
        dc := some true
        trace := s.trace ++ [.tx true (p.extractLsb' 0 8), .tx true (p.extractLsb' 8 8)]
        chan := s.chan.skip 2
        rsps := s.rsps ++ [⟨.ok, n⟩] }) ∧
    (s.rem.toNat = 1 →
      exec (.streamPixel p) s = .next { s with
        phase := .ready
        rem := 0
        csN := true
        dc := some true
        trace := s.trace ++ [.tx true (p.extractLsb' 0 8), .tx true (p.extractLsb' 8 8), .cs true]
        chan := s.chan.skip 2
        rsps := s.rsps ++ [⟨.ok, 0⟩] })

/-- R99, R124: a failed byte of SET_ORIENTATION, SET_WINDOW or STREAM_PIXEL ends the operation with TransportError: the
events before that byte stay, followed by `TXFAIL` and `CS(1)`; `REM` is 0, the phase CORRUPT; `DC` keeps the level of the
failing byte; `ORIENT`, `EW`, `EH`, `RST_N` are unchanged. -/
def Obligations.TransportFailureCutsTheOperation : Prop :=
  (∀ (o : Orientation) (s : State) (j : Nat), s.phase = .ready → s.csN = true → j < 2 → s.channelFailsAt j = true →
    exec (.setOrientation o) s = .next (afterFailure .transportError
      (commandEvents s.cfg.cmdMemoryAccessControl [flagsOf s.cfg.flagsTable o]) j s)) ∧
  (∀ (x0 y0 x1 y1 : Slot) (s : State) (j : Nat), s.phase = .ready → s.csN = true →
    insideScreen s.ew s.eh x0 y0 x1 y1 = true → j < 11 → s.channelFailsAt j = true →
    exec (.setWindow x0 y0 x1 y1) s = .next (afterFailure .transportError
      (windowEvents s.cfg x0 y0 x1 y1) j s)) ∧
  (∀ (p : Slot) (s : State) (j : Nat), s.phase = .streaming → s.csN = false → j < 2 → s.channelFailsAt j = true →
    exec (.streamPixel p) s = .next (afterFailure .transportError (pixelEvents p) j s))

/-- R98: an operation the phase does not admit is refused with SequenceError and changes nothing; an admitted one never
reports SequenceError. -/
def Obligations.AdmissionByPhase : Prop :=
  ∀ (i : Instr) (s : State),
    (admitted i s.phase = false → exec i s = .next { s with rsps := s.rsps ++ [⟨.sequenceError, 0⟩] }) ∧
    (admitted i s.phase = true → ∀ t : State, exec i s = .next t → (lastResponse t).err ≠ .sequenceError)

/-- R90: the phase after an operation is the one the table gives for the phase before, the operation and its outcome. -/
def Obligations.PhaseMovesByTheTable : Prop :=
  ∀ (i : Instr) (s t : State), exec i s = .next t → t.phase = phaseAfter s i (lastResponse t).err

/-- R128: a request reports the first error that applies in the order of the rule, and a RESET with `PINS_OK = 0`
consumes no answer of the channel oracle. The request port as a list is the model's form (log 4). -/
def Obligations.ErrorsAreReportedByPriority : Prop :=
  ∀ (s t : State) (w : ReqWord) (rest : List ReqWord), s.requests = w :: rest → step s = .next t →
    (lastResponse t).err = reportedError s w ∧
    (decode w = .ok .reset → s.pinsOk = false → t.chan = s.chan)

/-! ### Invariants and whole-machine rules -/

/-- R23, R140: the power-on state; waiting for the first request is an empty request list (the model's form, log 4). -/
def Obligations.PowerOnValues : Prop :=
  ∀ (c : Cfg) (pins chan : Oracle), ∃ s : State, s = .powerOn c pins chan ∧
    s.phase = .uninit ∧ s.orient = .np ∧ s.ew = c.sx ∧ s.eh = c.sy ∧ s.rem = 0 ∧ s.csN = true ∧ s.dc = none ∧
    s.rstN = none ∧ s.trace = [] ∧ s.rsps = [] ∧ s.cfg = c ∧ s.requests = []

/-- The invariants of R22, and the framing of R46, hold at power-on, and `State.reset` is the power-on of the installed
configuration. -/
def Obligations.InvariantsHoldAtPowerOn : Prop :=
  (∀ (c : Cfg) (pins chan : Oracle), c.wf = true →
    Inv (.powerOn c pins chan) ∧ Framed (.powerOn c pins chan)) ∧
  State.reset = .powerOn Config.installed ⟨[], 0⟩ ⟨[], 0⟩

/-- R22: every step keeps the invariants, from every state that has them. -/
def Obligations.StepKeepsTheInvariants : Prop :=
  ∀ s t : State, Inv s → step s = .next t → Inv t

/-- R46: every step keeps the framing of the trace: one command byte first, then data bytes, within one chip-select
assertion. -/
def Obligations.StepKeepsTheFraming : Prop :=
  ∀ s t : State, Inv s → Framed s → step s = .next t → Framed t

/-- R19: no operation reads the histories and no operation does anything to them but add to their ends. -/
def Obligations.HistoriesAreNotReadAndOnlyGrow : Prop :=
  ∀ (i : Instr) (s : State), ∃ t : State,
    exec i { s with trace := [], rsps := [] } = .next t ∧
    exec i s = .next { t with trace := s.trace ++ t.trace, rsps := s.rsps ++ t.rsps }

/-- R17, R18, R23: whatever `DC` and `RST_N` hold before an operation, absent values included, it does the same to
everything else: no operation reads them before writing them. -/
def Obligations.OutputLatchesAreNotRead : Prop :=
  ∀ (i : Instr) (s : State) (d r : Option Bool), ∃ t u : State,
    exec i s = .next t ∧ exec i { s with dc := d, rstN := r } = .next u ∧
    u = { t with dc := u.dc, rstN := u.rstN }

/-- R25: no step writes the configuration. -/
def Obligations.NoStepWritesTheConfiguration : Prop :=
  ∀ s t : State, step s = .next t → t.cfg = s.cfg

/-- R13, R14: `ORIENT`, `EW`, `EH` are written by a successful SET_ORIENTATION only, together. -/
def Obligations.GeometryIsWrittenBySetOrientationOnly : Prop :=
  ∀ (i : Instr) (s t : State), exec i s = .next t →
    (t.orient = s.orient ∧ t.ew = s.ew ∧ t.eh = s.eh) ∨
    ∃ o : Orientation, i = .setOrientation o ∧ (lastResponse t).err = .ok ∧ t.orient = o ∧
      (t.ew, t.eh) = effectiveSize s.cfg.sx s.cfg.sy o

/-- R18: `RST_N` is written by RESET only, which leaves it at 1 once its pin test has passed. -/
def Obligations.ResetPinIsDrivenByResetOnly : Prop :=
  ∀ (i : Instr) (s t : State), exec i s = .next t →
    (i ≠ .reset ∨ s.pinsOk = false → t.rstN = s.rstN) ∧ (i = .reset ∧ s.pinsOk = true → t.rstN = some true)

/-- R124, R130, R148: only a successful RESET leaves CORRUPT, and in CORRUPT the three other writing operations are
refused. -/
def Obligations.OnlyResetLeavesCorrupt : Prop :=
  ∀ (i : Instr) (s t : State), s.phase = .corrupt → exec i s = .next t →
    t.phase = .corrupt ∨ (i = .reset ∧ (lastResponse t).err = .ok ∧ t.phase = .ready)

/-- R150: an operation adds finitely many events: at most 5 and the init sequence's for RESET, 4 for the others, and for
SET_WINDOW 17, which is one more than R150 says where the memory-write byte fails (log 14). -/
def Obligations.EventsPerOperationAreBounded : Prop :=
  ∀ (i : Instr) (s t : State), Inv s → exec i s = .next t → ∃ es : List Event, t.trace = s.trace ++ es ∧
    (i = .reset → es.length ≤ 5 + (initEvents s.cfg.initSeq).length) ∧
    ((∃ x0 y0 x1 y1 : Slot, i = .setWindow x0 y0 x1 y1) → es.length ≤ 17) ∧
    (i ≠ .reset → (∀ x0 y0 x1 y1 : Slot, i ≠ .setWindow x0 y0 x1 y1) → es.length ≤ 4)

/-- R100: a window inside the screen has between 1 and `EW * EH` pixels, a count that 32 bits hold exactly. -/
def Obligations.PixelCountNeverOverflows : Prop :=
  ∀ ew eh x0 y0 x1 y1 : Slot, insideScreen ew eh x0 y0 x1 y1 = true →
    1 ≤ pixelCount x0 y0 x1 y1 ∧ pixelCount x0 y0 x1 y1 ≤ ew.toNat * eh.toNat ∧
    pixelCount x0 y0 x1 y1 < 2 ^ 32

/-- R61, R33, R34: bounds go on the wire high byte first; a pixel goes as its natural value high byte first, which is its
packed value low byte first. -/
def Obligations.WireByteOrder : Prop :=
  (∀ lo hi : Slot, boundsPayload lo hi =
    [lo.extractLsb' 8 8, lo.extractLsb' 0 8, hi.extractLsb' 8 8, hi.extractLsb' 0 8]) ∧
  ∀ p : Slot, pixelBytes p = [(swap16 p).extractLsb' 8 8, (swap16 p).extractLsb' 0 8] ∧
    pixelBytes p = [p.extractLsb' 0 8, p.extractLsb' 8 8]

/-- R152: a complete run, in a state that keeps the invariants, owes no pixel and has released chip select. -/
def Obligations.CompleteRunOwesNothing : Prop :=
  ∀ s : State, Inv s → s.complete → s.rem = 0 ∧ s.csN = true

/-! ### The abstract panel (R36 to R38; informative, and a view the model derives from the trace, log 9, of a panel for which the configured
waits suffice, log 18) -/

/-- R36: a successful SET_WINDOW selects the window in the panel and starts counting its pixels at 0; what the panel
holds is untouched. -/
def Obligations.SetWindowPrimesThePanel : Prop :=
  ∀ (x0 y0 x1 y1 : Slot) (s t : State), Inv s → s.phase = .ready → (panelOf s).midStream = false →
    exec (.setWindow x0 y0 x1 y1) s = .next t → (lastResponse t).err = .ok →
    panelOf t = { panelOf s with
      cols := some (x0, x1), rows := some (y0, y1), win := some ⟨x0, y0, x1, y1⟩, k := some 0
      rx := some (s.cfg.cmdMemoryWrite, []) }

/-- R37: with `n` pixels of the window received, a successful STREAM_PIXEL places the pixel's natural value at column
`n mod w`, row `n div w` of the window, and leaves every other pixel as it was. -/
def Obligations.StreamPixelLandsInRasterOrder : Prop :=
  ∀ (p : Slot) (s t : State) (w : Window) (n : Nat), Inv s → (panelOf s).win = some w → (panelOf s).k = some n →
    n < w.count → (panelOf s).rx = some (s.cfg.cmdMemoryWrite, []) →
    exec (.streamPixel p) s = .next t → (lastResponse t).err = .ok →
    (panelOf t).k = some (n + 1) ∧
    ∀ x y : Nat, (panelOf t).pixel x y =
      if x = w.x0.toNat + n % w.width ∧ y = w.y0.toNat + n / w.width then some (swap16 p)
      else (panelOf s).pixel x y

/-- R38: after any channel failure everything in the panel is unknown. -/
def Obligations.PanelIsUnknownAfterAFailure : Prop :=
  ∀ (i : Instr) (s t : State), exec i s = .next t →
    (lastResponse t).err = .transportError ∨
      (i = .reset ∧ s.pinsOk = true ∧ (lastResponse t).err = .initializationError) →
    panelOf t = .unknown

/-- R144, R36: a RESET leaves the panel's flags unknown where the init sequence does not itself set them, while `ORIENT`
keeps its value: the hazard the host must respect. -/
def Obligations.PanelFlagsAreUnknownAfterReset : Prop :=
  ∀ s t : State, Inv s → hasCommand s.cfg.cmdMemoryAccessControl s.cfg.initSeq = false →
    exec .reset s = .next t → (lastResponse t).err = .ok →
    (panelOf t).flags = none ∧ t.orient = s.orient ∧ t.ew = s.ew ∧ t.eh = s.eh

/-! ### The host's pseudo-operations -/

/-- R111: CONSTRUCT from power-on, with the pins claimable and every byte succeeding, leaves PXF READY in
normal-portrait with the two transactions' events in the trace, and hands over a frame buffer of `EW * EH` cells. -/
def Obligations.ConstructFromPowerOn : Prop :=
  ∀ (c : Cfg) (pins chan : Oracle) (s : State), s = .powerOn c pins chan → s.pinsOk = true →
    s.channelOk (byteCount (initEvents c.initSeq) + 2) = true →
    construct s = ({ s with
      phase := .ready
      dc := some true
      rstN := some true
      trace := [.rst false, .wait .resetHold, .rst true, .wait .resetSettle] ++ initEvents c.initSeq ++
        [.cs false, .tx false c.cmdMemoryAccessControl, .tx true c.flagsTable.np, .cs true]
      pins := pins.skip 1
      chan := chan.skip (byteCount (initEvents c.initSeq) + 2)
      rsps := [⟨.ok, 0⟩, ⟨.ok, 0⟩] },
      some ⟨0, (List.range (c.sx.toNat * c.sy.toNat)).map (Config.freshCell 0)⟩)

/-- R113: DRAW_PIXEL_SOURCE of a source of the screen's size overwrites the frame buffer with the packed colours in
row-major order, sends nothing and leaves PXF's registers alone; a source of another size has no result (U13). -/
def Obligations.DrawPixelSourceFillsTheFrameBuffer : Prop :=
  ∀ (src : PixelSource) (d : Driver),
    (src.width = d.pxf.ew.toNat ∧ src.height = d.pxf.eh.toNat ∧ src.pixels.length = src.width * src.height →
      ∃ e : Driver, drawPixelSource src d = some e ∧
        e.pxf = { d.pxf with rsps := d.pxf.rsps ++ src.pixels.map fun c => ⟨.ok, 0#16 ++ packColor c⟩ } ∧
        (∀ (k : Nat) (c : Rgb), src.pixels[k]? = some c → e.fb.cell k = packColor c) ∧
        (∀ k : Nat, src.pixels.length ≤ k → e.fb.cell k = d.fb.cell k) ∧
        e.fb.losses = d.fb.losses) ∧
    (src.width ≠ d.pxf.ew.toNat ∨ src.height ≠ d.pxf.eh.toNat → drawPixelSource src d = none)

/-- R114: SEND_FRAME in READY, every byte succeeding, sends the full-window command and then exactly `EW * EH` pixels of
the frame buffer in order, closes the transaction and ends READY; its flag makes no difference, and the frame buffer is
kept. -/
def Obligations.SendFrameSendsTheWholeFrame : Prop :=
  ∀ (full : Bool) (d : Driver) (s : State) (n : Nat), d.pxf = s → s.phase = .ready → s.csN = true →
    n = s.ew.toNat * s.eh.toNat → 0 < n → s.channelOk (11 + 2 * n) = true →
    sendFrame full d = { d with pxf := { s with
      phase := .ready
      rem := 0
      csN := true
      dc := some true
      trace := s.trace ++ windowEvents s.cfg 0 0 (s.ew - 1) (s.eh - 1) ++
        (List.range n).flatMap (fun k => pixelEvents (d.fb.cell k)) ++ [.cs true]
      chan := s.chan.skip (11 + 2 * n)
      rsps := s.rsps ++ [⟨.ok, s.ew ++ s.eh⟩, ⟨.ok, BitVec.ofNat 32 n⟩] ++
        (List.range n).map fun k => ⟨.ok, BitVec.ofNat 32 (n - 1 - k)⟩ } }

/-- R114, R37, R115: after SEND_FRAME, with a panel that was not in the middle of a stream, the panel shows the frame:
at every coordinate of the screen the natural value of the frame buffer's cell `y * EW + x`. -/
def Obligations.SendFrameShowsTheFrameOnThePanel : Prop :=
  ∀ (full : Bool) (d : Driver) (s : State), d.pxf = s → Inv s → s.phase = .ready → (panelOf s).midStream = false →
    s.channelOk (11 + 2 * (s.ew.toNat * s.eh.toNat)) = true →
    ∀ x y : Nat, x < s.ew.toNat → y < s.eh.toNat →
      (panelOf (sendFrame full d).pxf).pixel x y = some (swap16 (d.fb.cell (y * s.ew.toNat + x)))

/-- R115: the only request that touches the frame buffer is a successful SET_ORIENTATION that changes `EW`, after which
every cell of it is unspecified: a free value of a new epoch, whatever was drawn before (log 10). -/
def Obligations.OnlyAChangeOfWidthLosesTheFrame : Prop :=
  ∀ (i : Instr) (d : Driver),
    ((d.issue i).fb = d.fb ∨
      ∃ o : Orientation, i = .setOrientation o ∧ (lastResponse (d.issue i).pxf).err = .ok ∧
        (d.issue i).pxf.ew ≠ d.pxf.ew) ∧
    ((d.issue i).pxf.ew ≠ d.pxf.ew → ∀ k : Nat, (d.issue i).fb.cell k = Config.freshCell (d.fb.losses + 1) k)

/-- R111, R110: CONSTRUCT from power-on hands over no frame buffer where the pins cannot be claimed or a byte fails, and
surfaces the error: InitializationError from RESET, TransportError from SET_ORIENTATION. -/
def Obligations.ConstructFailsWithItsFirstError : Prop :=
  ∀ (c : Cfg) (pins chan : Oracle) (s : State), s = .powerOn c pins chan →
    s.pinsOk = false ∨ s.channelOk (byteCount (initEvents c.initSeq) + 2) = false →
    (construct s).2 = none ∧
    (lastResponse (construct s).1).err =
      if s.pinsOk = true ∧ s.channelOk (byteCount (initEvents c.initSeq)) = true then .transportError
      else .initializationError

/-- R36, R24: after a successful SET_ORIENTATION the panel's flags are the table's byte for `ORIENT`, and the view claims
nothing else of the panel: no window, no stream, no pixel (the model's choice, log 9). -/
def Obligations.SetOrientationSetsThePanelsFlags : Prop :=
  ∀ (o : Orientation) (s t : State), Inv s → (panelOf s).midStream = false →
    exec (.setOrientation o) s = .next t → (lastResponse t).err = .ok →
    (panelOf t).flags = some (flagsOf t.cfg.flagsTable t.orient) ∧ (panelOf t).selected = none ∧
    (panelOf t).midStream = false ∧ ∀ x y : Nat, (panelOf t).pixel x y = none
end

