-- ==== Sys2Proof/Laws/Decode.lean ====
section
/-! SUPPORT. Small lemmas of the encodings: slices of concatenations, the fields of a request word, operands in slots,
orientation codes. -/

namespace Sys2Proof

/-! ### Slices -/

@[simp] theorem Request.ofWord_toWord (q : Request) : Request.ofWord q.toWord = q := by
  obtain ⟨op, A, B, C, D⟩ := q
  simp only [Request.ofWord, Request.toWord, Request.mk.injEq]
  refine ⟨?_, ?_, ?_, ?_, ?_⟩ <;>
  · apply BitVec.eq_of_getLsbD_eq
    intro i hi
    simp only [BitVec.getLsbD_extractLsb', BitVec.getLsbD_append, hi, decide_true, Bool.true_and]
    split_ifs <;> first | omega | (congr 1; omega)

@[simp] theorem Request.toWord_ofWord (w : ReqWord) : (Request.ofWord w).toWord = w := by
  apply BitVec.eq_of_getLsbD_eq
  intro i hi
  simp only [Request.ofWord, Request.toWord, BitVec.getLsbD_extractLsb', BitVec.getLsbD_append]
  split_ifs <;> (rw [decide_eq_true (by omega), Bool.true_and]; congr 1; omega)

theorem Request.toWord_injective {p q : Request} (h : p.toWord = q.toWord) : p = q := by
  rw [← Request.ofWord_toWord p, h, Request.ofWord_toWord]

/-- The decoder said over the fields of a request (R53, R54, R55). -/
theorem decode_toWord (q : Request) : decode q.toWord = match q.operation with
    | none => .error (.undefinedOpcode q.op)
    | some i => if q.reservedClear i then .ok i else .error (.reservedBitsSet q.op) := by
  cases h : q.operation <;> simp [decode, h]

/-- A slot is its high byte and its low byte. -/
@[simp] theorem Slot.high_append_low (x : Slot) : (x.highByte ++ x.lowByte : Slot) = x := by
  apply BitVec.eq_of_getLsbD_eq
  intro i hi
  simp only [Slot.highByte, Slot.lowByte, BitVec.getLsbD_extractLsb', BitVec.getLsbD_append]
  split_ifs <;> (rw [decide_eq_true (by omega), Bool.true_and]; congr 1; omega)

@[simp] theorem Slot.lowByte_append (a b : Byte) : Slot.lowByte (a ++ b) = b := by
  apply BitVec.eq_of_getLsbD_eq
  intro i hi
  simp only [Slot.lowByte, BitVec.getLsbD_extractLsb', BitVec.getLsbD_append, hi, decide_true, Bool.true_and]
  split_ifs <;> first | omega | (congr 1; omega)

@[simp] theorem Slot.highByte_append (a b : Byte) : Slot.highByte (a ++ b) = a := by
  apply BitVec.eq_of_getLsbD_eq
  intro i hi
  simp only [Slot.highByte, BitVec.getLsbD_extractLsb', BitVec.getLsbD_append, hi, decide_true, Bool.true_and]
  split_ifs <;> first | omega | (congr 1; omega)

/-! ### Operands in slots -/

@[simp] theorem lowByte_byteSlot (v : Byte) : (byteSlot v).lowByte = v := Slot.lowByte_append _ _

@[simp] theorem highByteClear_byteSlot (v : Byte) : (byteSlot v).highByteClear = true := by
  simp [Slot.highByteClear, byteSlot]

/-- A slot whose high byte is zero is the slot of its low byte. -/
theorem byteSlot_lowByte {x : Slot} (h : x.highByteClear = true) : byteSlot x.lowByte = x := by
  have h0 : x.highByte = 0#8 := by simpa [Slot.highByteClear] using h
  have hx := x.high_append_low
  rw [h0] at hx
  exact hx

@[simp] theorem Orientation.ofBits_bits (o : Orientation) : Orientation.ofBits o.bits = o := by
  cases o <;> rfl

@[simp] theorem Orientation.bits_ofBits (v : BitVec 2) : (Orientation.ofBits v).bits = v := by
  revert v; decide

@[simp] theorem orientation_orientationSlot (o : Orientation) : (orientationSlot o).orientation = o := by
  cases o <;> rfl

@[simp] theorem aboveOrientationClear_orientationSlot (o : Orientation) :
    (orientationSlot o).aboveOrientationClear = true := by
  cases o <;> rfl

/-- A slot whose bits 15:2 are zero is the slot of its orientation. -/
theorem orientationSlot_orientation {x : Slot} (h : x.aboveOrientationClear = true) :
    orientationSlot x.orientation = x := by
  have h0 : x.extractLsb' 2 14 = 0#14 := by simpa [Slot.aboveOrientationClear] using h
  simp only [orientationSlot, Slot.orientation, Orientation.bits_ofBits, ← h0]
  apply BitVec.eq_of_getLsbD_eq
  intro i hi
  simp only [BitVec.getLsbD_extractLsb', BitVec.getLsbD_append]
  split_ifs <;> (rw [decide_eq_true (by omega), Bool.true_and]; congr 1; omega)

end Sys2Proof
end

