-- ==== Sys2Proof/Laws/State.lean ====
section
/-! SUPPORT. One simp lemma per field per update of the state, so that no later proof unfolds a record update. -/

namespace Sys2Proof.Machine

@[simp] theorem respond_phase (e : Err) (v : Word) (s : State) : (respond e v s).phase = s.phase := rfl
@[simp] theorem respond_orient (e : Err) (v : Word) (s : State) : (respond e v s).orient = s.orient := rfl
@[simp] theorem respond_ew (e : Err) (v : Word) (s : State) : (respond e v s).ew = s.ew := rfl
@[simp] theorem respond_eh (e : Err) (v : Word) (s : State) : (respond e v s).eh = s.eh := rfl
@[simp] theorem respond_rem (e : Err) (v : Word) (s : State) : (respond e v s).rem = s.rem := rfl
@[simp] theorem respond_csN (e : Err) (v : Word) (s : State) : (respond e v s).csN = s.csN := rfl
@[simp] theorem respond_dc (e : Err) (v : Word) (s : State) : (respond e v s).dc = s.dc := rfl
@[simp] theorem respond_rstN (e : Err) (v : Word) (s : State) : (respond e v s).rstN = s.rstN := rfl
@[simp] theorem respond_trace (e : Err) (v : Word) (s : State) : (respond e v s).trace = s.trace := rfl
@[simp] theorem respond_rsps (e : Err) (v : Word) (s : State) : (respond e v s).rsps = s.rsps ++ [⟨e, v⟩] := rfl
@[simp] theorem respond_cfg (e : Err) (v : Word) (s : State) : (respond e v s).cfg = s.cfg := rfl
@[simp] theorem respond_pins (e : Err) (v : Word) (s : State) : (respond e v s).pins = s.pins := rfl
@[simp] theorem respond_chan (e : Err) (v : Word) (s : State) : (respond e v s).chan = s.chan := rfl
@[simp] theorem respond_requests (e : Err) (v : Word) (s : State) : (respond e v s).requests = s.requests := rfl

@[simp] theorem succeed_phase (v : Word) (s : State) : (succeed v s).phase = s.phase := rfl
@[simp] theorem succeed_orient (v : Word) (s : State) : (succeed v s).orient = s.orient := rfl
@[simp] theorem succeed_ew (v : Word) (s : State) : (succeed v s).ew = s.ew := rfl
@[simp] theorem succeed_eh (v : Word) (s : State) : (succeed v s).eh = s.eh := rfl
@[simp] theorem succeed_rem (v : Word) (s : State) : (succeed v s).rem = s.rem := rfl
@[simp] theorem succeed_csN (v : Word) (s : State) : (succeed v s).csN = s.csN := rfl
@[simp] theorem succeed_dc (v : Word) (s : State) : (succeed v s).dc = s.dc := rfl
@[simp] theorem succeed_rstN (v : Word) (s : State) : (succeed v s).rstN = s.rstN := rfl
@[simp] theorem succeed_trace (v : Word) (s : State) : (succeed v s).trace = s.trace := rfl
@[simp] theorem succeed_rsps (v : Word) (s : State) : (succeed v s).rsps = s.rsps ++ [⟨.ok, v⟩] := rfl
@[simp] theorem succeed_cfg (v : Word) (s : State) : (succeed v s).cfg = s.cfg := rfl
@[simp] theorem succeed_pins (v : Word) (s : State) : (succeed v s).pins = s.pins := rfl
@[simp] theorem succeed_chan (v : Word) (s : State) : (succeed v s).chan = s.chan := rfl
@[simp] theorem succeed_requests (v : Word) (s : State) : (succeed v s).requests = s.requests := rfl

@[simp] theorem fail_phase (e : Err) (s : State) : (fail e s).phase = s.phase := rfl
@[simp] theorem fail_orient (e : Err) (s : State) : (fail e s).orient = s.orient := rfl
@[simp] theorem fail_ew (e : Err) (s : State) : (fail e s).ew = s.ew := rfl
@[simp] theorem fail_eh (e : Err) (s : State) : (fail e s).eh = s.eh := rfl
@[simp] theorem fail_rem (e : Err) (s : State) : (fail e s).rem = s.rem := rfl
@[simp] theorem fail_csN (e : Err) (s : State) : (fail e s).csN = s.csN := rfl
@[simp] theorem fail_dc (e : Err) (s : State) : (fail e s).dc = s.dc := rfl
@[simp] theorem fail_rstN (e : Err) (s : State) : (fail e s).rstN = s.rstN := rfl
@[simp] theorem fail_trace (e : Err) (s : State) : (fail e s).trace = s.trace := rfl
@[simp] theorem fail_rsps (e : Err) (s : State) : (fail e s).rsps = s.rsps ++ [⟨e, 0⟩] := rfl
@[simp] theorem fail_cfg (e : Err) (s : State) : (fail e s).cfg = s.cfg := rfl
@[simp] theorem fail_pins (e : Err) (s : State) : (fail e s).pins = s.pins := rfl
@[simp] theorem fail_chan (e : Err) (s : State) : (fail e s).chan = s.chan := rfl
@[simp] theorem fail_requests (e : Err) (s : State) : (fail e s).requests = s.requests := rfl

@[simp] theorem emit_phase (es : List Event) (s : State) : (emit es s).phase = s.phase := rfl
@[simp] theorem emit_orient (es : List Event) (s : State) : (emit es s).orient = s.orient := rfl
@[simp] theorem emit_ew (es : List Event) (s : State) : (emit es s).ew = s.ew := rfl
@[simp] theorem emit_eh (es : List Event) (s : State) : (emit es s).eh = s.eh := rfl
@[simp] theorem emit_rem (es : List Event) (s : State) : (emit es s).rem = s.rem := rfl
@[simp] theorem emit_csN (es : List Event) (s : State) : (emit es s).csN = s.csN := rfl
@[simp] theorem emit_dc (es : List Event) (s : State) : (emit es s).dc = s.dc := rfl
@[simp] theorem emit_rstN (es : List Event) (s : State) : (emit es s).rstN = s.rstN := rfl
@[simp] theorem emit_trace (es : List Event) (s : State) : (emit es s).trace = s.trace ++ es := rfl
@[simp] theorem emit_rsps (es : List Event) (s : State) : (emit es s).rsps = s.rsps := rfl
@[simp] theorem emit_cfg (es : List Event) (s : State) : (emit es s).cfg = s.cfg := rfl
@[simp] theorem emit_pins (es : List Event) (s : State) : (emit es s).pins = s.pins := rfl
@[simp] theorem emit_chan (es : List Event) (s : State) : (emit es s).chan = s.chan := rfl
@[simp] theorem emit_requests (es : List Event) (s : State) : (emit es s).requests = s.requests := rfl

@[simp] theorem samplePins_phase (s : State) : (samplePins s).phase = s.phase := rfl
@[simp] theorem samplePins_orient (s : State) : (samplePins s).orient = s.orient := rfl
@[simp] theorem samplePins_ew (s : State) : (samplePins s).ew = s.ew := rfl
@[simp] theorem samplePins_eh (s : State) : (samplePins s).eh = s.eh := rfl
@[simp] theorem samplePins_rem (s : State) : (samplePins s).rem = s.rem := rfl
@[simp] theorem samplePins_csN (s : State) : (samplePins s).csN = s.csN := rfl
@[simp] theorem samplePins_dc (s : State) : (samplePins s).dc = s.dc := rfl
@[simp] theorem samplePins_rstN (s : State) : (samplePins s).rstN = s.rstN := rfl
@[simp] theorem samplePins_trace (s : State) : (samplePins s).trace = s.trace := rfl
@[simp] theorem samplePins_rsps (s : State) : (samplePins s).rsps = s.rsps := rfl
@[simp] theorem samplePins_cfg (s : State) : (samplePins s).cfg = s.cfg := rfl
@[simp] theorem samplePins_pins (s : State) : (samplePins s).pins = s.pins.skip 1 := rfl
@[simp] theorem samplePins_chan (s : State) : (samplePins s).chan = s.chan := rfl
@[simp] theorem samplePins_requests (s : State) : (samplePins s).requests = s.requests := rfl

@[simp] theorem drawChan_phase (s : State) : (drawChan s).phase = s.phase := rfl
@[simp] theorem drawChan_orient (s : State) : (drawChan s).orient = s.orient := rfl
@[simp] theorem drawChan_ew (s : State) : (drawChan s).ew = s.ew := rfl
@[simp] theorem drawChan_eh (s : State) : (drawChan s).eh = s.eh := rfl
@[simp] theorem drawChan_rem (s : State) : (drawChan s).rem = s.rem := rfl
@[simp] theorem drawChan_csN (s : State) : (drawChan s).csN = s.csN := rfl
@[simp] theorem drawChan_dc (s : State) : (drawChan s).dc = s.dc := rfl
@[simp] theorem drawChan_rstN (s : State) : (drawChan s).rstN = s.rstN := rfl
@[simp] theorem drawChan_trace (s : State) : (drawChan s).trace = s.trace := rfl
@[simp] theorem drawChan_rsps (s : State) : (drawChan s).rsps = s.rsps := rfl
@[simp] theorem drawChan_cfg (s : State) : (drawChan s).cfg = s.cfg := rfl
@[simp] theorem drawChan_pins (s : State) : (drawChan s).pins = s.pins := rfl
@[simp] theorem drawChan_chan (s : State) : (drawChan s).chan = s.chan.skip 1 := rfl
@[simp] theorem drawChan_requests (s : State) : (drawChan s).requests = s.requests := rfl

@[simp] theorem driveDC_phase (v : Bool) (s : State) : (driveDC v s).phase = s.phase := rfl
@[simp] theorem driveDC_orient (v : Bool) (s : State) : (driveDC v s).orient = s.orient := rfl
@[simp] theorem driveDC_ew (v : Bool) (s : State) : (driveDC v s).ew = s.ew := rfl
@[simp] theorem driveDC_eh (v : Bool) (s : State) : (driveDC v s).eh = s.eh := rfl
@[simp] theorem driveDC_rem (v : Bool) (s : State) : (driveDC v s).rem = s.rem := rfl
@[simp] theorem driveDC_csN (v : Bool) (s : State) : (driveDC v s).csN = s.csN := rfl
@[simp] theorem driveDC_dc (v : Bool) (s : State) : (driveDC v s).dc = some v := rfl
@[simp] theorem driveDC_rstN (v : Bool) (s : State) : (driveDC v s).rstN = s.rstN := rfl
@[simp] theorem driveDC_trace (v : Bool) (s : State) : (driveDC v s).trace = s.trace := rfl
@[simp] theorem driveDC_rsps (v : Bool) (s : State) : (driveDC v s).rsps = s.rsps := rfl
@[simp] theorem driveDC_cfg (v : Bool) (s : State) : (driveDC v s).cfg = s.cfg := rfl
@[simp] theorem driveDC_pins (v : Bool) (s : State) : (driveDC v s).pins = s.pins := rfl
@[simp] theorem driveDC_chan (v : Bool) (s : State) : (driveDC v s).chan = s.chan := rfl
@[simp] theorem driveDC_requests (v : Bool) (s : State) : (driveDC v s).requests = s.requests := rfl

@[simp] theorem driveRST_phase (v : Bool) (s : State) : (driveRST v s).phase = s.phase := rfl
@[simp] theorem driveRST_orient (v : Bool) (s : State) : (driveRST v s).orient = s.orient := rfl
@[simp] theorem driveRST_ew (v : Bool) (s : State) : (driveRST v s).ew = s.ew := rfl
@[simp] theorem driveRST_eh (v : Bool) (s : State) : (driveRST v s).eh = s.eh := rfl
@[simp] theorem driveRST_rem (v : Bool) (s : State) : (driveRST v s).rem = s.rem := rfl
@[simp] theorem driveRST_csN (v : Bool) (s : State) : (driveRST v s).csN = s.csN := rfl
@[simp] theorem driveRST_dc (v : Bool) (s : State) : (driveRST v s).dc = s.dc := rfl
@[simp] theorem driveRST_rstN (v : Bool) (s : State) : (driveRST v s).rstN = some v := rfl
@[simp] theorem driveRST_trace (v : Bool) (s : State) : (driveRST v s).trace = s.trace ++ [.rst v] := rfl
@[simp] theorem driveRST_rsps (v : Bool) (s : State) : (driveRST v s).rsps = s.rsps := rfl
@[simp] theorem driveRST_cfg (v : Bool) (s : State) : (driveRST v s).cfg = s.cfg := rfl
@[simp] theorem driveRST_pins (v : Bool) (s : State) : (driveRST v s).pins = s.pins := rfl
@[simp] theorem driveRST_chan (v : Bool) (s : State) : (driveRST v s).chan = s.chan := rfl
@[simp] theorem driveRST_requests (v : Bool) (s : State) : (driveRST v s).requests = s.requests := rfl

@[simp] theorem idle_phase (n : WaitName) (s : State) : (idle n s).phase = s.phase := rfl
@[simp] theorem idle_orient (n : WaitName) (s : State) : (idle n s).orient = s.orient := rfl
@[simp] theorem idle_ew (n : WaitName) (s : State) : (idle n s).ew = s.ew := rfl
@[simp] theorem idle_eh (n : WaitName) (s : State) : (idle n s).eh = s.eh := rfl
@[simp] theorem idle_rem (n : WaitName) (s : State) : (idle n s).rem = s.rem := rfl
@[simp] theorem idle_csN (n : WaitName) (s : State) : (idle n s).csN = s.csN := rfl
@[simp] theorem idle_dc (n : WaitName) (s : State) : (idle n s).dc = s.dc := rfl
@[simp] theorem idle_rstN (n : WaitName) (s : State) : (idle n s).rstN = s.rstN := rfl
@[simp] theorem idle_trace (n : WaitName) (s : State) : (idle n s).trace = s.trace ++ [.wait n] := rfl
@[simp] theorem idle_rsps (n : WaitName) (s : State) : (idle n s).rsps = s.rsps := rfl
@[simp] theorem idle_cfg (n : WaitName) (s : State) : (idle n s).cfg = s.cfg := rfl
@[simp] theorem idle_pins (n : WaitName) (s : State) : (idle n s).pins = s.pins := rfl
@[simp] theorem idle_chan (n : WaitName) (s : State) : (idle n s).chan = s.chan := rfl
@[simp] theorem idle_requests (n : WaitName) (s : State) : (idle n s).requests = s.requests := rfl

@[simp] theorem cacheGeometry_phase (o : Orientation) (s : State) : (cacheGeometry o s).phase = s.phase := rfl
@[simp] theorem cacheGeometry_orient (o : Orientation) (s : State) : (cacheGeometry o s).orient = o := rfl
@[simp] theorem cacheGeometry_ew (o : Orientation) (s : State) : (cacheGeometry o s).ew = (effectiveSize s.cfg.sx s.cfg.sy o).1 := rfl
@[simp] theorem cacheGeometry_eh (o : Orientation) (s : State) : (cacheGeometry o s).eh = (effectiveSize s.cfg.sx s.cfg.sy o).2 := rfl
@[simp] theorem cacheGeometry_rem (o : Orientation) (s : State) : (cacheGeometry o s).rem = s.rem := rfl
@[simp] theorem cacheGeometry_csN (o : Orientation) (s : State) : (cacheGeometry o s).csN = s.csN := rfl
@[simp] theorem cacheGeometry_dc (o : Orientation) (s : State) : (cacheGeometry o s).dc = s.dc := rfl
@[simp] theorem cacheGeometry_rstN (o : Orientation) (s : State) : (cacheGeometry o s).rstN = s.rstN := rfl
@[simp] theorem cacheGeometry_trace (o : Orientation) (s : State) : (cacheGeometry o s).trace = s.trace := rfl
@[simp] theorem cacheGeometry_rsps (o : Orientation) (s : State) : (cacheGeometry o s).rsps = s.rsps := rfl
@[simp] theorem cacheGeometry_cfg (o : Orientation) (s : State) : (cacheGeometry o s).cfg = s.cfg := rfl
@[simp] theorem cacheGeometry_pins (o : Orientation) (s : State) : (cacheGeometry o s).pins = s.pins := rfl
@[simp] theorem cacheGeometry_chan (o : Orientation) (s : State) : (cacheGeometry o s).chan = s.chan := rfl
@[simp] theorem cacheGeometry_requests (o : Orientation) (s : State) : (cacheGeometry o s).requests = s.requests := rfl

@[simp] theorem beginStream_phase (n : Word) (s : State) : (beginStream n s).phase = .streaming := rfl
@[simp] theorem beginStream_orient (n : Word) (s : State) : (beginStream n s).orient = s.orient := rfl
@[simp] theorem beginStream_ew (n : Word) (s : State) : (beginStream n s).ew = s.ew := rfl
@[simp] theorem beginStream_eh (n : Word) (s : State) : (beginStream n s).eh = s.eh := rfl
@[simp] theorem beginStream_rem (n : Word) (s : State) : (beginStream n s).rem = n := rfl
@[simp] theorem beginStream_csN (n : Word) (s : State) : (beginStream n s).csN = s.csN := rfl
@[simp] theorem beginStream_dc (n : Word) (s : State) : (beginStream n s).dc = some true := rfl
@[simp] theorem beginStream_rstN (n : Word) (s : State) : (beginStream n s).rstN = s.rstN := rfl
@[simp] theorem beginStream_trace (n : Word) (s : State) : (beginStream n s).trace = s.trace := rfl
@[simp] theorem beginStream_rsps (n : Word) (s : State) : (beginStream n s).rsps = s.rsps := rfl
@[simp] theorem beginStream_cfg (n : Word) (s : State) : (beginStream n s).cfg = s.cfg := rfl
@[simp] theorem beginStream_pins (n : Word) (s : State) : (beginStream n s).pins = s.pins := rfl
@[simp] theorem beginStream_chan (n : Word) (s : State) : (beginStream n s).chan = s.chan := rfl
@[simp] theorem beginStream_requests (n : Word) (s : State) : (beginStream n s).requests = s.requests := rfl

@[simp] theorem present_phase (w : ReqWord) (s : State) : (present w s).phase = s.phase := rfl
@[simp] theorem present_orient (w : ReqWord) (s : State) : (present w s).orient = s.orient := rfl
@[simp] theorem present_ew (w : ReqWord) (s : State) : (present w s).ew = s.ew := rfl
@[simp] theorem present_eh (w : ReqWord) (s : State) : (present w s).eh = s.eh := rfl
@[simp] theorem present_rem (w : ReqWord) (s : State) : (present w s).rem = s.rem := rfl
@[simp] theorem present_csN (w : ReqWord) (s : State) : (present w s).csN = s.csN := rfl
@[simp] theorem present_dc (w : ReqWord) (s : State) : (present w s).dc = s.dc := rfl
@[simp] theorem present_rstN (w : ReqWord) (s : State) : (present w s).rstN = s.rstN := rfl
@[simp] theorem present_trace (w : ReqWord) (s : State) : (present w s).trace = s.trace := rfl
@[simp] theorem present_rsps (w : ReqWord) (s : State) : (present w s).rsps = s.rsps := rfl
@[simp] theorem present_cfg (w : ReqWord) (s : State) : (present w s).cfg = s.cfg := rfl
@[simp] theorem present_pins (w : ReqWord) (s : State) : (present w s).pins = s.pins := rfl
@[simp] theorem present_chan (w : ReqWord) (s : State) : (present w s).chan = s.chan := rfl
@[simp] theorem present_requests (w : ReqWord) (s : State) : (present w s).requests = w :: s.requests := rfl

/-- What driving chip select does, said once (R16). -/
theorem driveCS_eq (v : Bool) (s : State) :
    driveCS v s = { s with csN := v, trace := s.trace ++ if s.csN = v then [] else [.cs v] } := by
  unfold driveCS
  split
  · next h => subst h; simp
  · simp [emit]

@[simp] theorem driveCS_phase (v : Bool) (s : State) : (driveCS v s).phase = s.phase := by simp [driveCS_eq]
@[simp] theorem driveCS_orient (v : Bool) (s : State) : (driveCS v s).orient = s.orient := by simp [driveCS_eq]
@[simp] theorem driveCS_ew (v : Bool) (s : State) : (driveCS v s).ew = s.ew := by simp [driveCS_eq]
@[simp] theorem driveCS_eh (v : Bool) (s : State) : (driveCS v s).eh = s.eh := by simp [driveCS_eq]
@[simp] theorem driveCS_rem (v : Bool) (s : State) : (driveCS v s).rem = s.rem := by simp [driveCS_eq]
@[simp] theorem driveCS_csN (v : Bool) (s : State) : (driveCS v s).csN = v := by simp [driveCS_eq]
@[simp] theorem driveCS_dc (v : Bool) (s : State) : (driveCS v s).dc = s.dc := by simp [driveCS_eq]
@[simp] theorem driveCS_rstN (v : Bool) (s : State) : (driveCS v s).rstN = s.rstN := by simp [driveCS_eq]
@[simp] theorem driveCS_trace (v : Bool) (s : State) :
    (driveCS v s).trace = s.trace ++ if s.csN = v then [] else [.cs v] := by simp [driveCS_eq]
@[simp] theorem driveCS_rsps (v : Bool) (s : State) : (driveCS v s).rsps = s.rsps := by simp [driveCS_eq]
@[simp] theorem driveCS_cfg (v : Bool) (s : State) : (driveCS v s).cfg = s.cfg := by simp [driveCS_eq]
@[simp] theorem driveCS_pins (v : Bool) (s : State) : (driveCS v s).pins = s.pins := by simp [driveCS_eq]
@[simp] theorem driveCS_chan (v : Bool) (s : State) : (driveCS v s).chan = s.chan := by simp [driveCS_eq]
@[simp] theorem driveCS_requests (v : Bool) (s : State) : (driveCS v s).requests = s.requests := by simp [driveCS_eq]

@[simp] theorem transportFailure_phase (s : State) : (transportFailure s).phase = .corrupt := by simp [transportFailure]
@[simp] theorem transportFailure_orient (s : State) : (transportFailure s).orient = s.orient := by simp [transportFailure]
@[simp] theorem transportFailure_ew (s : State) : (transportFailure s).ew = s.ew := by simp [transportFailure]
@[simp] theorem transportFailure_eh (s : State) : (transportFailure s).eh = s.eh := by simp [transportFailure]
@[simp] theorem transportFailure_rem (s : State) : (transportFailure s).rem = 0 := by simp [transportFailure]
@[simp] theorem transportFailure_csN (s : State) : (transportFailure s).csN = true := by simp [transportFailure]
@[simp] theorem transportFailure_dc (s : State) : (transportFailure s).dc = s.dc := by simp [transportFailure]
@[simp] theorem transportFailure_rstN (s : State) : (transportFailure s).rstN = s.rstN := by simp [transportFailure]
@[simp] theorem transportFailure_trace (s : State) :
    (transportFailure s).trace = s.trace ++ if s.csN = true then [] else [.cs true] := by simp [transportFailure]
@[simp] theorem transportFailure_rsps (s : State) : (transportFailure s).rsps = s.rsps := by simp [transportFailure]
@[simp] theorem transportFailure_cfg (s : State) : (transportFailure s).cfg = s.cfg := by simp [transportFailure]
@[simp] theorem transportFailure_pins (s : State) : (transportFailure s).pins = s.pins := by simp [transportFailure]
@[simp] theorem transportFailure_chan (s : State) : (transportFailure s).chan = s.chan := by simp [transportFailure]
@[simp] theorem transportFailure_requests (s : State) : (transportFailure s).requests = s.requests := by simp [transportFailure]

@[simp] theorem driveDC_dcLevel (v : Bool) (s : State) : (driveDC v s).dcLevel = v := rfl

@[simp] theorem lastResponse_respond (e : Err) (v : Word) (s : State) : lastResponse (respond e v s) = ⟨e, v⟩ := by
  simp [lastResponse]

@[simp] theorem lastResponse_succeed (v : Word) (s : State) : lastResponse (succeed v s) = ⟨.ok, v⟩ := by
  simp [lastResponse]

@[simp] theorem lastResponse_fail (e : Err) (s : State) : lastResponse (fail e s) = ⟨e, 0⟩ := by
  simp [lastResponse]

end Sys2Proof.Machine
end

