-- ==== Sys2Proof/Laws/Ops.lean ====
section
/-! SUPPORT. What each shared operation does, said once: the environment's draws, the closed form of the channel
operations where every byte succeeds and where a given byte fails (R31, R32, R99), and what a channel operation leaves
alone whatever happens. -/

namespace Sys2Proof.Machine

/-! ### Draws from the environment -/

@[simp] theorem Oracle.skip_zero (o : Oracle) : o.skip 0 = o := by simp [Oracle.skip]

@[simp] theorem Oracle.skip_skip (o : Oracle) (m n : Nat) : (o.skip m).skip n = o.skip (m + n) := by
  simp [Oracle.skip, Nat.add_assoc]

@[simp] theorem Oracle.answer_skip (free : Nat → Bool) (o : Oracle) (n k : Nat) :
    (o.skip n).answer free k = o.answer free (n + k) := by
  simp [Oracle.answer, Oracle.skip, Nat.add_assoc]

/-- The next `n` writes succeed exactly where each of the next `n` answers is yes. -/
theorem channelOk_iff (s : State) (n : Nat) : s.channelOk n = true ↔ ∀ k < n, s.chanAnswer k = true := by
  simp [State.channelOk]

/-- The answers ahead depend on the oracle alone. -/
theorem chanAnswer_of_chan {s t : State} {n : Nat} (h : t.chan = s.chan.skip n) (k : Nat) :
    t.chanAnswer k = s.chanAnswer (n + k) := by
  simp [State.chanAnswer, h]

theorem channelOk_add {s t : State} {m : Nat} (h : t.chan = s.chan.skip m) (n : Nat) :
    s.channelOk (m + n) = true ↔ s.channelOk m = true ∧ t.channelOk n = true := by
  simp only [channelOk_iff, chanAnswer_of_chan h]
  constructor
  · exact fun H => ⟨fun k hk => H k (by omega), fun k hk => H (m + k) (by omega)⟩
  · rintro ⟨h1, h2⟩ k hk
    rcases Nat.lt_or_ge k m with hlt | hge
    · exact h1 k hlt
    · have := h2 (k - m) (by omega)
      rwa [Nat.add_sub_cancel' hge] at this

theorem channelFailsAt_iff (s : State) (j : Nat) :
    s.channelFailsAt j = true ↔ s.channelOk j = true ∧ s.chanAnswer j = false := by
  simp [State.channelFailsAt]

/-- Either the next `n` writes succeed or there is a first one that fails. -/
theorem channelOk_or_failsAt (s : State) (n : Nat) :
    s.channelOk n = true ∨ ∃ j < n, s.channelFailsAt j = true := by
  induction n with
  | zero => exact .inl (by simp [channelOk_iff])
  | succ n ih =>
    rcases ih with h | ⟨j, hj, hf⟩
    · cases ha : s.chanAnswer n with
      | true =>
        refine .inl ((channelOk_iff _ _).2 fun k hk => ?_)
        rcases Nat.lt_succ_iff_lt_or_eq.1 hk with hlt | rfl
        · exact (channelOk_iff _ _).1 h k hlt
        · exact ha
      | false => exact .inr ⟨n, by omega, (channelFailsAt_iff _ _).2 ⟨h, ha⟩⟩
    · exact .inr ⟨j, by omega, hf⟩

/-! ### Event lists -/

@[simp] theorem byteCount_nil : byteCount [] = 0 := rfl

@[simp] theorem byteCount_cons (e : Event) (es : List Event) :
    byteCount (e :: es) = byteCount es + if e.isTx then 1 else 0 := by
  simp [byteCount, List.countP_cons]

@[simp] theorem byteCount_append (a b : List Event) : byteCount (a ++ b) = byteCount a + byteCount b := by
  simp [byteCount]

@[simp] theorem byteCount_data (ds : List Byte) : byteCount (ds.map (.tx true)) = ds.length := by
  induction ds with
  | nil => rfl
  | cons d ds ih => simp [ih, Event.isTx]

@[simp] theorem dcAfter_append (d : Option Bool) (a b : List Event) :
    dcAfter d (a ++ b) = dcAfter (dcAfter d a) b := by
  induction a generalizing d with
  | nil => rfl
  | cons e a ih => cases e <;> simp [dcAfter, ih]

/-- Cutting within the first part drops the second. -/
theorem cutAt_append_left {j : Nat} {a : List Event} (h : j < byteCount a) (b : List Event) :
    cutAt j (a ++ b) = cutAt j a := by
  induction a generalizing j with
  | nil => simp at h
  | cons e a ih =>
    cases e with
    | tx d v =>
      cases j with
      | zero => rfl
      | succ j =>
        simp only [List.cons_append, cutAt]
        rw [ih (by simpa [Event.isTx] using h)]
    | _ => simp only [List.cons_append, cutAt]; rw [ih (by simpa [Event.isTx] using h)]

/-- Cutting past the first part keeps it whole. -/
theorem cutAt_append_right (j : Nat) (a b : List Event) : cutAt (byteCount a + j) (a ++ b) = a ++ cutAt j b := by
  induction a with
  | nil => simp
  | cons e a ih =>
    cases e with
    | tx d v =>
      have : byteCount (.tx d v :: a) + j = (byteCount a + j) + 1 := by simp [Event.isTx]; omega
      rw [this]; simp only [List.cons_append, cutAt]; rw [ih]
    | _ =>
      simp only [byteCount_cons, Event.isTx, Bool.false_eq_true, if_false, Nat.add_zero, List.cons_append, cutAt]
      rw [ih]

/-! ### The closed form of channel operations -/

/-- The state after a channel operation whose events are all performed. -/
def afterSent (cs : Bool) (es : List Event) (s : State) : State :=
  { s with csN := cs, dc := dcAfter s.dc es, trace := s.trace ++ es, chan := s.chan.skip (byteCount es) }

/-- The state after a channel operation whose byte `j` fails (R99, R124). -/
def afterCut (es : List Event) (j : Nat) (s : State) : State :=
  { s with
    phase := .corrupt, rem := 0, csN := true, dc := dcAfter s.dc (cutAt j es), trace := s.trace ++ cutAt j es
    chan := s.chan.skip (j + 1) }

/-- A channel operation performs the events `es`: from chip select at level `a` it either sends them all and leaves
chip select at `b`, or is cut at the first byte that fails. -/
structure Performs (f : State → Transfer) (a b : Bool) (es : List Event) : Prop where
  sent : ∀ s : State, s.csN = a → s.channelOk (byteCount es) = true → f s = .sent (afterSent b es s)
  cut : ∀ (s : State) (j : Nat), s.csN = a → j < byteCount es → s.channelFailsAt j = true →
    f s = .failed (afterCut es j s)

@[simp] theorem afterSent_csN (cs : Bool) (es : List Event) (s : State) : (afterSent cs es s).csN = cs := rfl

theorem afterSent_chan (cs : Bool) (es : List Event) (s : State) :
    (afterSent cs es s).chan = s.chan.skip (byteCount es) := rfl

theorem afterSent_afterSent (b c : Bool) (es fs : List Event) (s : State) :
    afterSent c fs (afterSent b es s) = afterSent c (es ++ fs) s := by
  simp [afterSent]

theorem afterCut_afterSent (b : Bool) (es fs : List Event) (j : Nat) (s : State) :
    afterCut fs j (afterSent b es s) = afterCut (es ++ fs) (byteCount es + j) s := by
  simp [afterCut, afterSent, cutAt_append_right, Nat.add_assoc]

/-- Operations in sequence perform their events in sequence. -/
theorem Performs.andThen {f g : State → Transfer} {a b c : Bool} {es fs : List Event} (hf : Performs f a b es)
    (hg : Performs g b c fs) : Performs (fun s => (f s).andThen g) a c (es ++ fs) where
  sent s hs hok := by
    rw [byteCount_append, channelOk_add (afterSent_chan b es s)] at hok
    simp [hf.sent s hs hok.1, Transfer.andThen, hg.sent _ (afterSent_csN b es s) hok.2, afterSent_afterSent]
  cut s j hs hj hfail := by
    rcases Nat.lt_or_ge j (byteCount es) with hlt | hge
    · simp [hf.cut s j hs hlt hfail, Transfer.andThen, afterCut, cutAt_append_left hlt]
    · obtain ⟨k, rfl⟩ := Nat.exists_eq_add_of_le hge
      rw [channelFailsAt_iff, channelOk_add (afterSent_chan b es s), ← chanAnswer_of_chan (afterSent_chan b es s)]
        at hfail
      have hk : k < byteCount fs := by simpa using hj
      simp [hf.sent s hs hfail.1.1, Transfer.andThen,
        hg.cut _ k (afterSent_csN b es s) hk ((channelFailsAt_iff _ _).2 ⟨hfail.1.2, hfail.2⟩), afterCut_afterSent]

/-- A state update that only adds events, sends no byte and ends at a known level performs those events. -/
theorem Performs.of_update {f : State → Transfer} {a b : Bool} {es : List Event} (h0 : byteCount es = 0)
    (h : ∀ s : State, s.csN = a → f s = .sent (afterSent b es s)) : Performs f a b es :=
  ⟨fun s hs _ => h s hs, fun s j hs hj _ => by omega⟩

/-- `Send` with the data/command level set just before (R31, R45). -/
theorem performs_send (v : Bool) (b : Byte) :
    Performs (fun s => send b (driveDC v s)) false false [.tx v b] where
  sent s hs hok := by
    have : s.chanAnswer 0 = true := (channelOk_iff _ _).1 hok 0 (by simp [Event.isTx])
    have h' : (driveDC v s).chanAnswer 0 = true := this
    simp only [send, h', if_true, driveDC_dcLevel]
    simp [afterSent, dcAfter, emit, drawChan, driveDC, ← hs, Event.isTx]
  cut s j hs hj hfail := by
    obtain rfl : j = 0 := by simp [Event.isTx] at hj; exact hj
    have h' : (driveDC v s).chanAnswer 0 = false := ((channelFailsAt_iff _ _).1 hfail).2
    simp only [send, h', driveDC_dcLevel]
    simp [afterCut, cutAt, dcAfter, emit, drawChan, driveDC, hs, transportFailure, driveCS]

/-- The data bytes of a payload or a pixel, D/C driven high before the first (R32, R95). -/
theorem performs_sendAll (d : Byte) (ds : List Byte) :
    Performs (fun s => sendAll (d :: ds) (driveDC true s)) false false ((d :: ds).map (.tx true)) := by
  induction ds generalizing d with
  | nil =>
    have h := (performs_send true d).andThen
      (Performs.of_update (f := .sent) (a := false) (b := false) (es := []) rfl fun s hs => by
        simp [afterSent, dcAfter, ← hs])
    simpa [sendAll] using h
  | cons e ds ih =>
    have hdc : ∀ s, (send d (driveDC true s)).andThen (fun t => sendAll (e :: ds) (driveDC true t)) =
        (send d (driveDC true s)).andThen (sendAll (e :: ds)) := by
      intro s
      unfold send
      split <;> rfl
    have h := (performs_send true d).andThen (ih e)
    simp only [hdc] at h
    simpa [sendAll] using h

theorem performs_openCommand (c : Byte) : Performs (openCommand c) true false [.cs false, .tx false c] := by
  have h := (Performs.of_update (f := fun s => .sent (driveCS false s)) (a := true) (b := false)
    (es := [.cs false]) rfl fun s hs => by simp [afterSent, dcAfter, driveCS, hs, emit, Event.isTx]).andThen
    (performs_send false c)
  exact h

theorem performs_sendPayload (ds : List Byte) : Performs (sendPayload ds) false false (ds.map (.tx true)) := by
  cases ds with
  | nil => exact Performs.of_update rfl fun s hs => by simp [sendPayload, afterSent, dcAfter, ← hs]
  | cons d ds => exact performs_sendAll d ds

theorem performs_release : Performs (fun s => .sent (driveCS true s)) false true [.cs true] :=
  Performs.of_update rfl fun s hs => by simp [afterSent, dcAfter, driveCS, hs, emit, Event.isTx]

/-- `Command(c, ds)` (R32). -/
theorem performs_command (c : Byte) (ds : List Byte) : Performs (command c ds) true true (commandEvents c ds) :=
  ((performs_openCommand c).andThen (performs_sendPayload ds)).andThen performs_release

/-- The init sequence (R91). -/
theorem performs_runInit (steps : List InitStep) : Performs (runInit steps) true true (initEvents steps) := by
  induction steps with
  | nil => exact Performs.of_update rfl fun s hs => by simp [runInit, initEvents, afterSent, dcAfter, ← hs]
  | cons st rest ih =>
    cases st with
    | cmd c ds => exact (performs_command c ds).andThen ih
    | wait n =>
      exact (Performs.of_update (f := fun s => .sent (idle n s)) (a := true) (b := true) (es := [.wait n]) rfl
        fun s hs => by simp [afterSent, dcAfter, idle, emit, hs, Event.isTx]).andThen ih

/-- The channel activity of SET_WINDOW (R94). -/
theorem performs_addressWindow (cfg : Cfg) (x0 y0 x1 y1 : Slot) :
    Performs (fun s => ((command cfg.cmdColumnAddressSet (boundsPayload x0 x1) s).andThen
      (command cfg.cmdRowAddressSet (boundsPayload y0 y1))).andThen (openCommand cfg.cmdMemoryWrite)) true false
      (windowEvents cfg x0 y0 x1 y1) :=
  ((performs_command _ _).andThen (performs_command _ _)).andThen (performs_openCommand _)

theorem performs_pixel (p : Slot) :
    Performs (fun s => sendAll (pixelBytes p) (driveDC true s)) false false (pixelEvents p) :=
  performs_sendAll p.lowByte [p.highByte]

/-! ### What a channel operation leaves alone, from any state -/

/-- The state a transfer ended in, whether or not a byte failed. -/
def Transfer.state : Transfer → State
  | .sent s => s
  | .failed s => s

/-- Only the channel's side of the state moved from `s` to `t`: `CS_N`, `DC`, the oracle, the trace (which grew), and,
after a failure, `REM` and `PHASE`. -/
structure OnlyChannel (s t : State) : Prop where
  orient : t.orient = s.orient
  ew : t.ew = s.ew
  eh : t.eh = s.eh
  rstN : t.rstN = s.rstN
  rsps : t.rsps = s.rsps
  cfg : t.cfg = s.cfg
  pins : t.pins = s.pins
  requests : t.requests = s.requests
  trace : s.trace <+: t.trace
  dc : s.dc ≠ none → t.dc ≠ none

theorem OnlyChannel.refl (s : State) : OnlyChannel s s :=
  ⟨rfl, rfl, rfl, rfl, rfl, rfl, rfl, rfl, List.prefix_refl _, id⟩

theorem OnlyChannel.trans {s t u : State} (h : OnlyChannel s t) (k : OnlyChannel t u) : OnlyChannel s u :=
  ⟨k.orient.trans h.orient, k.ew.trans h.ew, k.eh.trans h.eh, k.rstN.trans h.rstN, k.rsps.trans h.rsps,
    k.cfg.trans h.cfg, k.pins.trans h.pins, k.requests.trans h.requests, h.trace.trans k.trace, k.dc ∘ h.dc⟩

/-- Everything a channel operation can do to the state from `s`, in either outcome (R31, R32, R99). -/
structure ChannelSpec (s : State) (r : Transfer) : Prop where
  only : OnlyChannel s r.state
  sent : ∀ t, r = .sent t → t.phase = s.phase ∧ t.rem = s.rem
  failed : ∀ t, r = .failed t → t.phase = .corrupt ∧ t.rem = 0 ∧ t.csN = true
  failed_trace : ∀ t, r = .failed t → ∃ es d b, t.trace = es ++ [.txFail d b, .cs true] ∨ t.trace = es ++ [.txFail d b]

theorem ChannelSpec.of_sent {s t : State} (h : OnlyChannel s t) (hp : t.phase = s.phase) (hr : t.rem = s.rem) :
    ChannelSpec s (.sent t) :=
  ⟨h, by rintro _ ⟨⟩; exact ⟨hp, hr⟩, by rintro _ ⟨⟩, by rintro _ ⟨⟩⟩

theorem ChannelSpec.andThen {s : State} {r : Transfer} {k : State → Transfer} (h : ChannelSpec s r)
    (hk : ∀ t, ChannelSpec t (k t)) : ChannelSpec s (r.andThen k) := by
  cases r with
  | failed t => exact h
  | sent t =>
    have ht := h.sent t rfl
    exact ⟨h.only.trans (hk t).only,
      fun u hu => ⟨((hk t).sent u hu).1.trans ht.1, ((hk t).sent u hu).2.trans ht.2⟩, (hk t).failed,
      (hk t).failed_trace⟩

theorem onlyChannel_driveCS (v : Bool) (s : State) : OnlyChannel s (driveCS v s) := by
  constructor <;> simp

theorem onlyChannel_driveDC (v : Bool) (s : State) : OnlyChannel s (driveDC v s) := by
  constructor <;> simp

/-- A state update of the channel's side may come before a channel operation. -/
theorem ChannelSpec.of_update {s t : State} {r : Transfer} (h : OnlyChannel s t) (hp : t.phase = s.phase)
    (hr : t.rem = s.rem) (k : ChannelSpec t r) : ChannelSpec s r :=
  ⟨h.trans k.only, fun u hu => ⟨(k.sent u hu).1.trans hp, (k.sent u hu).2.trans hr⟩, k.failed, k.failed_trace⟩

theorem channelSpec_send (b : Byte) (s : State) : ChannelSpec s (send b s) := by
  unfold send
  split
  · exact .of_sent (by constructor <;> simp) rfl rfl
  · refine ⟨by constructor <;> simp [Transfer.state], by rintro _ ⟨⟩, by rintro _ ⟨⟩; simp, ?_⟩
    rintro _ ⟨⟩
    refine ⟨s.trace, s.dcLevel, b, ?_⟩
    cases h : s.csN <;> simp [h]

theorem channelSpec_sendAll (bs : List Byte) (s : State) : ChannelSpec s (sendAll bs s) := by
  induction bs generalizing s with
  | nil => exact .of_sent (.refl s) rfl rfl
  | cons b bs ih => exact (channelSpec_send b s).andThen ih

theorem channelSpec_openCommand (c : Byte) (s : State) : ChannelSpec s (openCommand c s) :=
  .of_update (.trans (onlyChannel_driveCS false s) (onlyChannel_driveDC false _)) (by simp) (by simp)
    (channelSpec_send c _)

theorem channelSpec_sendPayload (ds : List Byte) (s : State) : ChannelSpec s (sendPayload ds s) := by
  cases ds with
  | nil => exact .of_sent (.refl s) rfl rfl
  | cons d ds => exact .of_update (onlyChannel_driveDC true s) rfl rfl (channelSpec_sendAll (d :: ds) _)

theorem channelSpec_command (c : Byte) (ds : List Byte) (s : State) : ChannelSpec s (command c ds s) :=
  ((channelSpec_openCommand c s).andThen (channelSpec_sendPayload ds)).andThen fun t =>
    .of_sent (onlyChannel_driveCS true t) (by simp) (by simp)

theorem channelSpec_runInit (steps : List InitStep) (s : State) : ChannelSpec s (runInit steps s) := by
  induction steps generalizing s with
  | nil => exact .of_sent (.refl s) rfl rfl
  | cons st rest ih =>
    cases st with
    | cmd c ds => exact (channelSpec_command c ds s).andThen ih
    | wait n =>
      have h : OnlyChannel s (idle n s) := by constructor <;> simp
      exact .of_update h rfl rfl (ih (idle n s))

theorem channelSpec_addressWindow (x0 y0 x1 y1 : Slot) (s : State) :
    ChannelSpec s (addressWindow x0 y0 x1 y1 s) :=
  ((channelSpec_command _ _ s).andThen (channelSpec_command _ _)).andThen (channelSpec_openCommand _)

/-! ### Which outcome a channel operation has, from any state -/

/-- No byte failed. -/
def Transfer.isSent : Transfer → Bool
  | .sent _ => true
  | .failed _ => false

/-- A channel operation that writes `n` bytes: it ends well exactly where the next `n` answers are yes, and has then
consumed them. -/
structure Writes (f : State → Transfer) (n : Nat) : Prop where
  isSent : ∀ s, (f s).isSent = s.channelOk n
  chan : ∀ s t, f s = .sent t → t.chan = s.chan.skip n

theorem Writes.andThen {f g : State → Transfer} {m n : Nat} (hf : Writes f m) (hg : Writes g n) :
    Writes (fun s => (f s).andThen g) (m + n) where
  isSent s := by
    have h := hf.isSent s
    rw [Bool.eq_iff_iff]
    cases hfs : f s with
    | sent t =>
      rw [channelOk_add (hf.chan s t hfs), ← h, hfs, ← hg.isSent t]
      simp [Transfer.andThen, Transfer.isSent]
    | failed t =>
      rw [hfs] at h
      have hno : ¬ s.channelOk m = true := by simp [← h, Transfer.isSent]
      simp only [Transfer.andThen, Transfer.isSent, Bool.false_eq_true, false_iff]
      exact fun H => hno ((channelOk_iff _ _).2 fun k hk => (channelOk_iff _ _).1 H k (by omega))
  chan s u hu := by
    cases hfs : f s with
    | sent t =>
      rw [hfs] at hu
      simp [hg.chan t u hu, hf.chan s t hfs]
    | failed t => rw [hfs] at hu; cases hu

/-- An update that writes nothing and leaves the oracle alone may come before. -/
theorem Writes.of_update {f : State → Transfer} {n : Nat} (u : State → State) (hu : ∀ s, (u s).chan = s.chan)
    (hf : Writes f n) : Writes (fun s => f (u s)) n where
  isSent s := by
    have h : (u s).chanAnswer = s.chanAnswer := funext fun k => by simp [State.chanAnswer, hu]
    simp [hf.isSent, State.channelOk, h]
  chan s t ht := by simpa [hu] using hf.chan (u s) t ht

theorem writes_update (u : State → State) (hu : ∀ s, (u s).chan = s.chan) : Writes (fun s => .sent (u s)) 0 where
  isSent s := by simp [Transfer.isSent, State.channelOk]
  chan s t ht := by cases ht; simp [hu]

theorem writes_send (b : Byte) : Writes (send b) 1 where
  isSent s := by
    unfold send
    split <;> simp_all [Transfer.isSent, State.channelOk]
  chan s t ht := by
    unfold send at ht
    split at ht
    · cases ht; rfl
    · cases ht

theorem writes_sendAll (bs : List Byte) : Writes (sendAll bs) bs.length := by
  induction bs with
  | nil => exact writes_update id fun _ => rfl
  | cons b bs ih =>
    have h := (writes_send b).andThen ih
    rwa [Nat.add_comm] at h

theorem writes_openCommand (c : Byte) : Writes (openCommand c) 1 :=
  (writes_send c).of_update (fun s => driveDC false (driveCS false s)) (by simp)

theorem writes_sendPayload (ds : List Byte) : Writes (sendPayload ds) ds.length := by
  cases ds with
  | nil => exact writes_update id fun _ => rfl
  | cons d ds => exact (writes_sendAll (d :: ds)).of_update (driveDC true) fun _ => rfl

theorem writes_command (c : Byte) (ds : List Byte) : Writes (command c ds) (1 + ds.length) :=
  ((writes_openCommand c).andThen (writes_sendPayload ds)).andThen (writes_update (driveCS true) (by simp))

theorem byteCount_commandEvents (c : Byte) (ds : List Byte) : byteCount (commandEvents c ds) = 1 + ds.length := by
  simp [commandEvents, Event.isTx, Nat.add_comm]

theorem writes_runInit (steps : List InitStep) : Writes (runInit steps) (byteCount (initEvents steps)) := by
  induction steps with
  | nil => exact writes_update id fun _ => rfl
  | cons st rest ih =>
    cases st with
    | cmd c ds =>
      have h := (writes_command c ds).andThen ih
      rwa [← byteCount_commandEvents c ds, ← byteCount_append] at h
    | wait n =>
      have h := ih.of_update (idle n) fun _ => rfl
      have hn : byteCount (initEvents (.wait n :: rest)) = byteCount (initEvents rest) := by
        simp [initEvents, Event.isTx]
      rw [hn]
      exact h

/-- Where SET_WINDOW's channel activity starts from a given state, it performs the sixteen events or is cut (R94). -/
theorem addressWindow_sent {x0 y0 x1 y1 : Slot} {s : State} (hs : s.csN = true) (hok : s.channelOk 11 = true) :
    addressWindow x0 y0 x1 y1 s = .sent (afterSent false (windowEvents s.cfg x0 y0 x1 y1) s) :=
  (performs_addressWindow s.cfg x0 y0 x1 y1).sent s hs hok

theorem addressWindow_cut {x0 y0 x1 y1 : Slot} {s : State} {j : Nat} (hs : s.csN = true) (hj : j < 11)
    (hf : s.channelFailsAt j = true) :
    addressWindow x0 y0 x1 y1 s = .failed (afterCut (windowEvents s.cfg x0 y0 x1 y1) j s) :=
  (performs_addressWindow s.cfg x0 y0 x1 y1).cut s j hs hj hf

/-- SET_WINDOW's channel activity ends well exactly where the next eleven answers are yes. -/
theorem addressWindow_isSent (x0 y0 x1 y1 : Slot) (s : State) :
    (addressWindow x0 y0 x1 y1 s).isSent = s.channelOk 11 :=
  (((writes_command s.cfg.cmdColumnAddressSet (boundsPayload x0 x1)).andThen
    (writes_command s.cfg.cmdRowAddressSet (boundsPayload y0 y1))).andThen
    (writes_openCommand s.cfg.cmdMemoryWrite)).isSent s

/-! ### The pixel count -/

/-- More than one pixel owed: one less, the stream stays open (R95). -/
theorem countPixel_more {s : State} (h : 1 < s.rem.toNat) : countPixel s = { s with rem := s.rem - 1 } := by
  have hne : s.rem - 1 ≠ 0 := by bv_omega
  simp only [countPixel, if_neg hne]

/-- The last pixel owed: the transaction is closed (R95). -/
theorem countPixel_last {s : State} (h : s.rem.toNat = 1) :
    countPixel s = { driveCS true s with rem := 0, phase := .ready } := by
  have he : s.rem - 1 = 0 := by bv_omega
  simp only [countPixel, if_pos he]

/-! ### Admission, conclusion, the request port -/

theorem whenPhase_admitted {p : Phase} {s : State} (h : s.phase = p) (k : State → State) : whenPhase p s k = k s := by
  simp [whenPhase, h]

theorem whenPhase_refused {p : Phase} {s : State} (h : s.phase ≠ p) (k : State → State) :
    whenPhase p s k = fail .sequenceError s := by
  simp [whenPhase, h]

@[simp] theorem conclude_sent (e : Err) (s : State) (k : State → State) : conclude e (.sent s) k = k s := rfl

@[simp] theorem conclude_failed (e : Err) (s : State) (k : State → State) :
    conclude e (.failed s) k = fail e s := rfl

@[simp] theorem acceptRequest_present (w : ReqWord) (s : State) : acceptRequest (present w s) = some (w, s) := rfl

/-- A request presented and accepted: a step is the execution of what it spells, or its refusal (R9, R55). -/
theorem step_present (w : ReqWord) (s : State) :
    step (present w s) = match decode w with
      | .ok i => exec i s
      | .error _ => .next (refuseIllegal s) := rfl

theorem step_of_requests {s : State} {w : ReqWord} {rest : List ReqWord} (h : s.requests = w :: rest) :
    step s = match decode w with
      | .ok i => exec i { s with requests := rest }
      | .error _ => .next (refuseIllegal { s with requests := rest }) := by
  cases hd : decode w <;> simp [step, acceptRequest, h, hd]

theorem step_idle {s : State} (h : s.requests = []) : step s = .next s := by
  simp [step, acceptRequest, h]

/-- Every operation answers a next state: no error of PXF stops the machine (R129). -/
theorem exec_next (i : Instr) (s : State) : ∃ t, exec i s = .next t := by
  cases i <;> exact ⟨_, rfl⟩

end Sys2Proof.Machine
end

