-- ==== Sys2Proof/Laws/Exec.lean ====
section
/-! SUPPORT. What each operation can do, said once: the cases of `exec` for the operations that use the channel, and the
one form of all the others. Whole-machine claims follow from these and from `ChannelSpec`, `Performs`, `Writes`. -/

namespace Sys2Proof.Machine

/-- The outcome of an operation that admits one result is that result. -/
theorem next_injective {a b : State} (h : (Host.Outcome.next a : Host.Outcome State Fault Refusal) = .next b) : a = b := by
  cases h; rfl

/-- The operations that use neither the channel nor the phase. -/
def readsOnly : Instr → Bool
  | .reset => false
  | .setOrientation _ => false
  | .setWindow _ _ _ _ => false
  | .streamPixel _ => false
  | .encode _ _ _ => true
  | .decode _ => true
  | .nearlyEqual _ _ _ => true
  | .flagsFor _ => true
  | .effectiveSize _ _ _ => true
  | .getScreenSize => true
  | .getStatus => true
  | .getRemaining => true

/-- Codec, orientation-unit and read-back operations add a success response and do nothing else (R75). -/
theorem exec_readsOnly {i : Instr} {s t : State} (hi : readsOnly i = true) (h : exec i s = .next t) :
    ∃ v, t = succeed v s := by
  cases i <;> first | exact ⟨_, (next_injective h).symm⟩ | cases hi

/-- Where RESET's init sequence starts: chip select released, `REM` 0, the pulse done (R91). -/
def resetStart (s : State) : State := resetPulse { driveCS true (samplePins s) with rem := 0 }

/-- The three outcomes of RESET (R91, R99). -/
theorem exec_reset_cases {s t : State} (h : exec .reset s = .next t) :
    (s.pinsOk = false ∧ t = fail .initializationError (samplePins s)) ∨
    (s.pinsOk = true ∧ ∃ u, runInit s.cfg.initSeq (resetStart s) = .sent u ∧
      t = succeed 0 { u with phase := .ready }) ∨
    (s.pinsOk = true ∧ ∃ u, runInit s.cfg.initSeq (resetStart s) = .failed u ∧ t = fail .initializationError u) := by
  have h := (next_injective h).symm
  cases hp : s.pinsOk with
  | false => exact .inl ⟨rfl, by simpa [hp] using h⟩
  | true =>
    rw [if_pos hp] at h
    change t = conclude .initializationError (runInit s.cfg.initSeq (resetStart s)) _ at h
    cases hr : runInit s.cfg.initSeq (resetStart s) with
    | sent u => exact .inr (.inl ⟨rfl, u, rfl, by rw [h, hr]; rfl⟩)
    | failed u => exact .inr (.inr ⟨rfl, u, rfl, by rw [h, hr]; rfl⟩)

/-- The three outcomes of SET_ORIENTATION (R93, R98, R99). -/
theorem exec_setOrientation_cases {o : Orientation} {s t : State} (h : exec (.setOrientation o) s = .next t) :
    (s.phase ≠ .ready ∧ t = fail .sequenceError s) ∨
    (s.phase = .ready ∧ ∃ u,
      command s.cfg.cmdMemoryAccessControl [flagsOf s.cfg.flagsTable o] s = .sent u ∧ t = succeed 0 (cacheGeometry o u)) ∨
    (s.phase = .ready ∧ ∃ u,
      command s.cfg.cmdMemoryAccessControl [flagsOf s.cfg.flagsTable o] s = .failed u ∧ t = fail .transportError u) := by
  have h := (next_injective h).symm
  by_cases hp : s.phase = .ready
  · rw [whenPhase_admitted hp] at h
    cases hr : command s.cfg.cmdMemoryAccessControl [flagsOf s.cfg.flagsTable o] s with
    | sent u => exact .inr (.inl ⟨hp, u, rfl, by rw [h, hr]; rfl⟩)
    | failed u => exact .inr (.inr ⟨hp, u, rfl, by rw [h, hr]; rfl⟩)
  · exact .inl ⟨hp, by rw [h, whenPhase_refused hp]⟩

/-- The four outcomes of SET_WINDOW (R94, R98, R99, R123). -/
theorem exec_setWindow_cases {x0 y0 x1 y1 : Slot} {s t : State} (h : exec (.setWindow x0 y0 x1 y1) s = .next t) :
    (s.phase ≠ .ready ∧ t = fail .sequenceError s) ∨
    (s.phase = .ready ∧ insideScreen s.ew s.eh x0 y0 x1 y1 = false ∧ t = fail .invalidGeometry s) ∨
    (s.phase = .ready ∧ insideScreen s.ew s.eh x0 y0 x1 y1 = true ∧ ∃ u, addressWindow x0 y0 x1 y1 s = .sent u ∧
      t = succeed (BitVec.ofNat 32 (pixelCount x0 y0 x1 y1))
        (beginStream (BitVec.ofNat 32 (pixelCount x0 y0 x1 y1)) u)) ∨
    (s.phase = .ready ∧ insideScreen s.ew s.eh x0 y0 x1 y1 = true ∧ ∃ u, addressWindow x0 y0 x1 y1 s = .failed u ∧
      t = fail .transportError u) := by
  have h := (next_injective h).symm
  by_cases hp : s.phase = .ready
  · rw [whenPhase_admitted hp] at h
    cases hi : insideScreen s.ew s.eh x0 y0 x1 y1 with
    | false => exact .inr (.inl ⟨hp, rfl, by simpa [hi] using h⟩)
    | true =>
      rw [if_pos hi] at h
      cases hr : addressWindow x0 y0 x1 y1 s with
      | sent u => exact .inr (.inr (.inl ⟨hp, rfl, u, rfl, by rw [h, hr]; rfl⟩))
      | failed u => exact .inr (.inr (.inr ⟨hp, rfl, u, rfl, by rw [h, hr]; rfl⟩))
  · exact .inl ⟨hp, by rw [h, whenPhase_refused hp]⟩

/-- The three outcomes of STREAM_PIXEL (R95, R98, R99). -/
theorem exec_streamPixel_cases {p : Slot} {s t : State} (h : exec (.streamPixel p) s = .next t) :
    (s.phase ≠ .streaming ∧ t = fail .sequenceError s) ∨
    (s.phase = .streaming ∧ ∃ u, sendAll (pixelBytes p) (driveDC true s) = .sent u ∧
      t = succeed (countPixel u).rem (countPixel u)) ∨
    (s.phase = .streaming ∧ ∃ u, sendAll (pixelBytes p) (driveDC true s) = .failed u ∧ t = fail .transportError u) := by
  have h := (next_injective h).symm
  by_cases hp : s.phase = .streaming
  · rw [whenPhase_admitted hp] at h
    cases hr : sendAll (pixelBytes p) (driveDC true s) with
    | sent u => exact .inr (.inl ⟨hp, u, rfl, by rw [h, hr]; rfl⟩)
    | failed u => exact .inr (.inr ⟨hp, u, rfl, by rw [h, hr]; rfl⟩)
  · exact .inl ⟨hp, by rw [h, whenPhase_refused hp]⟩

/-- What RESET has done before the init sequence. -/
theorem resetStart_only (s : State) :
    (resetStart s).orient = s.orient ∧ (resetStart s).ew = s.ew ∧ (resetStart s).eh = s.eh ∧
    (resetStart s).phase = s.phase ∧ (resetStart s).rem = 0 ∧ (resetStart s).csN = true ∧
    (resetStart s).dc = s.dc ∧ (resetStart s).rstN = some true ∧ (resetStart s).rsps = s.rsps ∧
    (resetStart s).cfg = s.cfg ∧ (resetStart s).chan = s.chan ∧ (resetStart s).pins = s.pins.skip 1 ∧
    (resetStart s).requests = s.requests ∧
    (resetStart s).trace = s.trace ++ (if s.csN = true then [] else [.cs true]) ++ pulseEvents := by
  cases h : s.csN <;> simp [resetStart, resetPulse, pulseEvents, h]

/-- What counting a pixel does to every field it may leave alone (R95). -/
theorem countPixel_only (s : State) :
    (countPixel s).orient = s.orient ∧ (countPixel s).ew = s.ew ∧ (countPixel s).eh = s.eh ∧
    (countPixel s).dc = s.dc ∧ (countPixel s).rstN = s.rstN ∧ (countPixel s).rsps = s.rsps ∧
    (countPixel s).cfg = s.cfg ∧ (countPixel s).chan = s.chan ∧ (countPixel s).pins = s.pins ∧
    (countPixel s).requests = s.requests ∧ s.trace <+: (countPixel s).trace := by
  unfold countPixel
  split <;> simp

end Sys2Proof.Machine
end

