-- ==== Sys2Proof/Laws/PerInstr.lean ====
section
/-! SUPPORT. Statements made of every instruction, one lemma per constructor. -/

/-- The encoder gives a legal request word: it selects the row of R54's table that has the operation's mnemonic. -/
def Sys2Proof.Laws.EncodeLegal.Statement (i : Sys2Proof.Instr) : Prop :=
  ∃ t ∈ Sys2Proof.opcodeTable, t.mnemonic = i.mnemonic ∧ t.selects (Sys2Proof.encode i) = true

namespace Sys2Proof.Laws.EncodeLegal

open Sys2Proof

/-- Masks and words are compared field by field. -/
theorem and_append5 (a a' : Byte) (b b' c c' d d' e e' : Slot) :
    (a ++ b ++ c ++ d ++ e : ReqWord) &&& (a' ++ b' ++ c' ++ d' ++ e' : ReqWord) =
      (a &&& a') ++ (b &&& b') ++ (c &&& c') ++ (d &&& d') ++ (e &&& e') := by
  apply BitVec.eq_of_getLsbD_eq
  intro i hi
  simp only [BitVec.getLsbD_and, BitVec.getLsbD_append]
  split_ifs <;> rfl

theorem byteSlot_mask (v : Byte) : byteSlot v &&& 0xFF00#16 = 0#16 := by
  apply BitVec.eq_of_getLsbD_eq
  intro i hi
  simp only [byteSlot, BitVec.getLsbD_and, BitVec.getLsbD_append, BitVec.getLsbD_zero]
  split_ifs with h
  · have : (0xFF00#16).getLsbD i = false := by interval_cases i <;> rfl
    simp [this]
  · rfl

theorem orientationSlot_mask (o : Orientation) : orientationSlot o &&& 0xFFFC#16 = 0#16 := by
  cases o <;> rfl

theorem zero_mask : (0 : Slot) &&& 0xFFFF = 0 := by decide

/-- A row selects a request whose masked fields are those of the row. -/
theorem selects_of_fields {i : Instr} {t : TableRow} (ht : t ∈ opcodeTable) (hm : t.mnemonic = i.mnemonic)
    (m p : Request) (hmask : t.mask = m.toWord) (hpat : t.pattern = p.toWord) (hop : i.request.op &&& m.op = p.op)
    (hA : i.request.A &&& m.A = p.A) (hB : i.request.B &&& m.B = p.B) (hC : i.request.C &&& m.C = p.C)
    (hD : i.request.D &&& m.D = p.D) : Statement i := by
  refine ⟨t, ht, hm, ?_⟩
  simp only [TableRow.selects, beq_iff_eq, hmask, hpat]
  refine (and_append5 ..).trans ?_
  rw [hop, hA, hB, hC, hD]
  rfl

theorem encode (r g b : Byte) : Statement (.encode r g b) :=
  selects_of_fields (t := ⟨"ENCODE", 0x010000000000000000, 0xFFFF00FF00FF00FFFF⟩) (by decide) rfl
    ⟨0xFF, 0xFF00, 0xFF00, 0xFF00, 0xFFFF⟩ ⟨0x01, 0, 0, 0, 0⟩ (by decide) (by decide)
    (by decide : (0x01 : Byte) &&& 0xFF = 0x01) (byteSlot_mask r) (byteSlot_mask g) (byteSlot_mask b) zero_mask

theorem decode (p : Slot) : Statement (.decode p) :=
  selects_of_fields (t := ⟨"DECODE", 0x020000000000000000, 0xFF0000FFFFFFFFFFFF⟩) (by decide) rfl
    ⟨0xFF, 0x0000, 0xFFFF, 0xFFFF, 0xFFFF⟩ ⟨0x02, 0, 0, 0, 0⟩ (by decide) (by decide)
    (by decide : (0x02 : Byte) &&& 0xFF = 0x02) BitVec.and_zero zero_mask zero_mask zero_mask

theorem nearlyEqual (pa pb : Slot) (tol : Byte) : Statement (.nearlyEqual pa pb tol) :=
  selects_of_fields (t := ⟨"NEARLY_EQUAL", 0x030000000000000000, 0xFF00000000FF00FFFF⟩) (by decide) rfl
    ⟨0xFF, 0x0000, 0x0000, 0xFF00, 0xFFFF⟩ ⟨0x03, 0, 0, 0, 0⟩ (by decide) (by decide)
    (by decide : (0x03 : Byte) &&& 0xFF = 0x03) BitVec.and_zero BitVec.and_zero (byteSlot_mask tol) zero_mask

theorem flagsFor (o : Orientation) : Statement (.flagsFor o) :=
  selects_of_fields (t := ⟨"FLAGS_FOR", 0x100000000000000000, 0xFFFFFCFFFFFFFFFFFF⟩) (by decide) rfl
    ⟨0xFF, 0xFFFC, 0xFFFF, 0xFFFF, 0xFFFF⟩ ⟨0x10, 0, 0, 0, 0⟩ (by decide) (by decide)
    (by decide : (0x10 : Byte) &&& 0xFF = 0x10) (orientationSlot_mask o) zero_mask zero_mask zero_mask

theorem effectiveSize (w h : Slot) (o : Orientation) : Statement (.effectiveSize w h o) :=
  selects_of_fields (t := ⟨"EFFECTIVE_SIZE", 0x110000000000000000, 0xFF00000000FFFCFFFF⟩) (by decide) rfl
    ⟨0xFF, 0x0000, 0x0000, 0xFFFC, 0xFFFF⟩ ⟨0x11, 0, 0, 0, 0⟩ (by decide) (by decide)
    (by decide : (0x11 : Byte) &&& 0xFF = 0x11) BitVec.and_zero BitVec.and_zero (orientationSlot_mask o) zero_mask

theorem getScreenSize : Statement .getScreenSize := ⟨⟨"GET_SCREEN_SIZE", 0x120000000000000000, 0xFFFFFFFFFFFFFFFFFF⟩, by decide, rfl, by decide⟩

theorem reset : Statement .reset := ⟨⟨"RESET", 0x200000000000000000, 0xFFFFFFFFFFFFFFFFFF⟩, by decide, rfl, by decide⟩

theorem setOrientation (o : Orientation) : Statement (.setOrientation o) :=
  selects_of_fields (t := ⟨"SET_ORIENTATION", 0x210000000000000000, 0xFFFFFCFFFFFFFFFFFF⟩) (by decide) rfl
    ⟨0xFF, 0xFFFC, 0xFFFF, 0xFFFF, 0xFFFF⟩ ⟨0x21, 0, 0, 0, 0⟩ (by decide) (by decide)
    (by decide : (0x21 : Byte) &&& 0xFF = 0x21) (orientationSlot_mask o) zero_mask zero_mask zero_mask

theorem setWindow (x0 y0 x1 y1 : Slot) : Statement (.setWindow x0 y0 x1 y1) :=
  selects_of_fields (t := ⟨"SET_WINDOW", 0x220000000000000000, 0xFF0000000000000000⟩) (by decide) rfl
    ⟨0xFF, 0x0000, 0x0000, 0x0000, 0x0000⟩ ⟨0x22, 0, 0, 0, 0⟩ (by decide) (by decide)
    (by decide : (0x22 : Byte) &&& 0xFF = 0x22) BitVec.and_zero BitVec.and_zero BitVec.and_zero BitVec.and_zero

theorem streamPixel (p : Slot) : Statement (.streamPixel p) :=
  selects_of_fields (t := ⟨"STREAM_PIXEL", 0x230000000000000000, 0xFF0000FFFFFFFFFFFF⟩) (by decide) rfl
    ⟨0xFF, 0x0000, 0xFFFF, 0xFFFF, 0xFFFF⟩ ⟨0x23, 0, 0, 0, 0⟩ (by decide) (by decide)
    (by decide : (0x23 : Byte) &&& 0xFF = 0x23) BitVec.and_zero zero_mask zero_mask zero_mask

theorem getStatus : Statement .getStatus := ⟨⟨"GET_STATUS", 0x240000000000000000, 0xFFFFFFFFFFFFFFFFFF⟩, by decide, rfl, by decide⟩

theorem getRemaining : Statement .getRemaining := ⟨⟨"GET_REMAINING", 0x250000000000000000, 0xFFFFFFFFFFFFFFFFFF⟩, by decide, rfl, by decide⟩

end Sys2Proof.Laws.EncodeLegal
end

