-- ==== Sys2Proof/Laws/Pseudo.lean ====
section
/-! SUPPORT. What the host's pseudo-operations do, said once: issuing one request and several, and the frame buffer. -/

namespace Sys2Proof.Machine

/-- Issuing an operation whose word decodes to it executes it (R9, R110). -/
theorem issue_of_decode {i : Instr} {s t : State} (hd : decode (encode i) = .ok i) (h : exec i s = .next t) :
    issue i s = t := by
  simp [issue, step_present, hd, h]

/-- A request that reports success is followed by the next (R110). -/
theorem issueAll_cons_ok {i : Instr} {s : State} (h : (lastResponse (issue i s)).err = .ok) (rest : List Instr) :
    issueAll (i :: rest) s = issueAll rest (issue i s) := by
  simp [issueAll, h]

/-- A request that reports an error is the last (R110). -/
theorem issueAll_cons_stop {i : Instr} {s : State} (h : (lastResponse (issue i s)).err ≠ .ok) (rest : List Instr) :
    issueAll (i :: rest) s = issue i s := by
  simp [issueAll, h]

/-- Unspecified contents: every cell is a free value (R115). -/
@[simp] theorem FrameBuffer.fresh_cell (n : Nat) (ew eh : Slot) (k : Nat) :
    (FrameBuffer.fresh n ew eh).cell k = Config.freshCell n k := by
  simp only [FrameBuffer.cell, FrameBuffer.fresh, List.getD_eq_getElem?_getD, List.getElem?_map]
  cases h : (List.range (ew.toNat * eh.toNat))[k]? with
  | none => rfl
  | some j => obtain ⟨_, rfl⟩ := List.getElem?_eq_some_iff.1 h; simp

/-- A cell among the overwritten ones is the value written there (R113). -/
theorem FrameBuffer.overwrite_cell {vs : List Slot} {k : Nat} {v : Slot} (h : vs[k]? = some v) (fb : FrameBuffer) :
    (fb.overwrite vs).cell k = v := by
  have hk : k < vs.length := (List.getElem?_eq_some_iff.1 h).1
  simp [FrameBuffer.cell, FrameBuffer.overwrite, List.getElem?_append_left hk, h]

/-- A cell past the overwritten ones is kept (R113). -/
theorem FrameBuffer.overwrite_cell_of_le {vs : List Slot} {k : Nat} (h : vs.length ≤ k) (fb : FrameBuffer) :
    (fb.overwrite vs).cell k = fb.cell k := by
  simp [FrameBuffer.cell, FrameBuffer.overwrite, List.getElem?_append_right h, Nat.add_sub_cancel' h]

@[simp] theorem FrameBuffer.overwrite_losses (vs : List Slot) (fb : FrameBuffer) :
    (fb.overwrite vs).losses = fb.losses := rfl

@[simp] theorem Driver.follow_pxf (d : Driver) (t : State) : (d.follow t).pxf = t := rfl

@[simp] theorem Driver.issue_pxf (i : Instr) (d : Driver) :
    (d.issue i).pxf = Sys2Proof.Machine.issue i d.pxf := rfl

/-- While `EW` stays, so does the frame buffer (R115). -/
theorem Driver.follow_of_ew {d : Driver} {t : State} (h : t.ew = d.pxf.ew) : d.follow t = { d with pxf := t } := by
  simp [Driver.follow, h]

/-- When `EW` changes, the frame buffer's contents are lost (R115). -/
theorem Driver.follow_fb_of_ew_ne {d : Driver} {t : State} (h : t.ew ≠ d.pxf.ew) :
    (d.follow t).fb = .fresh (d.fb.losses + 1) t.ew t.eh := by
  simp [Driver.follow, h]

/-- What the panel latches at a memory-write command is in order in both dimensions (log 9). -/
theorem Panel.selected_ordered {p : Panel} {w : Window} (h : p.selected = some w) : w.x0 ≤ w.x1 ∧ w.y0 ≤ w.y1 := by
  unfold Panel.selected at h
  split at h
  · split at h
    · next hle => cases h; exact hle
    · cases h
  · cases h

end Sys2Proof.Machine
end

