-- ==== Sys2Proof/Tests/Slice0.lean ====
section
/-! SUPPORT. Tests of the model against the spec's own vectors (spec/95_test_vectors.md; the name of a test ends in the
vector it is), and a witness for the hypotheses of every obligation that has some. -/

namespace Sys2Proof.Tests

open Sys2Proof.Machine

/-! ### Small states -/

/-- The configuration of the vectors of sections 2.3 to 2.6. -/
def cfg : Cfg := .standard 240 320 ⟨0, 0, 0, []⟩

/-- Power-on with pins that can be claimed and a channel whose next sixteen answers are yes. -/
def on : State := .powerOn cfg ⟨[true], 0⟩ ⟨List.replicate 16 true, 0⟩

/-- READY, normal-portrait. -/
def ready : State := { on with phase := .ready, dc := some true, rstN := some true }

/-- READY, normal-landscape. -/
def readyNL : State := { ready with orient := .nl, ew := 320, eh := 240 }

/-- STREAMING with a number of pixels owed. -/
def streaming (o : Orientation) (n : Word) : State :=
  { ready with phase := .streaming, orient := o, ew := 320, eh := 240, rem := n, csN := false }

/-- CORRUPT. -/
def corrupt : State := { ready with phase := .corrupt }

/-- The channel answers yes `j` times, then no. -/
def failing (j : Nat) (s : State) : State := { s with chan := ⟨List.replicate j true ++ [false], 0⟩ }

/-- The state an operation ends in. -/
def after (i : Instr) (s : State) : State :=
  match exec i s with
  | .next t => t
  | .fault _ => s
  | .refused _ => s

/-- The response of an operation. -/
def answer (i : Instr) (s : State) : Response := lastResponse (after i s)

/-- A word presented at a state is refused with IllegalRequest, and nothing but the response history changes. -/
def refusedWord (w : ReqWord) (s : State) : Bool :=
  match step (present w s) with
  | .next t => decide (t = { s with rsps := s.rsps ++ [⟨.illegalRequest, 0⟩] })
  | .fault _ => false
  | .refused _ => false

/-- A step answers a next state. -/
def goesOn : Host.Outcome State Fault Refusal → Bool
  | .next _ => true
  | .fault _ => false
  | .refused _ => false

/-! ### Ill-formed words: one or more for each row's check (vectors I1 to I18), and refused by the decoder by name -/

theorem test_wf_encode_I1 : ReqWord.WellFormed 0x010100000000000000 = false := by decide
theorem test_wf_encode_I2 : ReqWord.WellFormed 0x010001000200030001 = false := by decide
theorem test_wf_decode_I3 : ReqWord.WellFormed 0x02FFFF000100000000 = false := by decide
theorem test_wf_nearlyEqual_I4 : ReqWord.WellFormed 0x030000000001000000 = false := by decide
theorem test_wf_flagsFor_I5 : ReqWord.WellFormed 0x100004000000000000 = false := by decide
theorem test_wf_effectiveSize_I6 : ReqWord.WellFormed 0x11012C00C800040000 = false := by decide
theorem test_wf_getScreenSize_I7 : ReqWord.WellFormed 0x120001000000000000 = false := by decide
theorem test_wf_reset_I8 : ReqWord.WellFormed 0x200000000000000001 = false := by decide
theorem test_wf_setOrientation_I9 : ReqWord.WellFormed 0x210004000000000000 = false := by decide
theorem test_wf_streamPixel_I10 : ReqWord.WellFormed 0x230000000100000000 = false := by decide
theorem test_wf_getStatus_I11 : ReqWord.WellFormed 0x240000000000010000 = false := by decide
theorem test_wf_getRemaining_I12 : ReqWord.WellFormed 0x258000000000000000 = false := by decide
theorem test_wf_undefined_opcodes_I13_to_I18 :
    ReqWord.WellFormed 0x000000000000000000 = false ∧ ReqWord.WellFormed 0x040000000000000000 = false ∧
    ReqWord.WellFormed 0x130000000000000000 = false ∧ ReqWord.WellFormed 0x260000000000000000 = false ∧
    ReqWord.WellFormed 0x300000000000000000 = false ∧ ReqWord.WellFormed 0xFFFFFFFFFFFFFFFFFF = false := by decide
theorem test_wf_setWindow_any : ReqWord.WellFormed 0x22FFFFFFFFFFFFFFFF = true := by decide

theorem test_decode_names_the_reserved_bit_I2 :
    decodeTableWord 72 0x010001000200030001 = none ∧
    refusedWord 0x010001000200030001 corrupt = true := by decide
theorem test_decode_names_the_opcode_I13 :
    decodeTableWord 72 0 = none ∧ refusedWord 0x000000000000000000 on = true := by decide
theorem test_illegal_word_in_streaming_I10 : refusedWord 0x230000000100000000 (streaming .nl 5) = true := by decide

/-! ### Every operation's word, written out from R50 and R53 -/

theorem test_word_encode_E12 : decodeTableWord 72 0x0100AB00CD00EF0000 = some (.encode 0xAB 0xCD 0xEF) := by decide
theorem test_word_decode_D8 : decodeTableWord 72 0x0200FF000000000000 = some (.decode 0x00FF) := by decide
theorem test_word_nearlyEqual_N12 :
    decodeTableWord 72 0x03C007E007000E0000 = some (.nearlyEqual 0xC007 0xE007 14) := by decide
theorem test_word_flagsFor_O4 : decodeTableWord 72 0x100003000000000000 = some (.flagsFor .fl) := by decide
theorem test_word_effectiveSize_S3 :
    decodeTableWord 72 0x11012C00C800020000 = some (.effectiveSize 300 200 .fp) := by decide
theorem test_word_getScreenSize_O7 : decodeTableWord 72 0x120000000000000000 = some .getScreenSize := by decide
theorem test_word_reset : decodeTableWord 72 0x200000000000000000 = some .reset := by decide
theorem test_word_setOrientation_X11 : decodeTableWord 72 0x210001000000000000 = some (.setOrientation .nl) := by decide
theorem test_word_setWindow_W13 :
    decodeTableWord 72 0x2200640032012B0095 = some (.setWindow 100 50 299 149) := by decide
theorem test_word_streamPixel_X7 : decodeTableWord 72 0x231234000000000000 = some (.streamPixel 0x1234) := by decide
theorem test_word_getStatus : decodeTableWord 72 0x240000000000000000 = some .getStatus := by decide
theorem test_word_getRemaining : decodeTableWord 72 0x250000000000000000 = some .getRemaining := by decide

/-- The example of R62. -/
theorem test_asm_setWindow_R62 : (Instr.setWindow 0 0 319 239).asm = "SET_WINDOW 0, 0, 319, 239" := by decide

/-! ### One step of every operation -/

theorem test_encode_E12 : answer (.encode 0xAB 0xCD 0xEF) on = ⟨.ok, 0x7DAE⟩ := by decide
theorem test_encode_E9 : answer (.encode 248 252 248) corrupt = ⟨.ok, 0xFFFF⟩ := by decide
theorem test_decode_D8 : answer (.decode 0x00FF) on = ⟨.ok, 0x00FFE000⟩ := by decide
theorem test_decode_D9 : answer (.decode 0xFF00) on = ⟨.ok, 0x00001CFF⟩ := by decide
theorem test_nearlyEqual_N12_N13 :
    answer (.nearlyEqual 0xC007 0xE007 14) on = ⟨.ok, 1⟩ ∧ answer (.nearlyEqual 0xC007 0xE007 13) on = ⟨.ok, 0⟩ := by
  decide
theorem test_nearlyEqual_N17 : answer (.nearlyEqual 0x0000 0xE007 255) on = ⟨.ok, 0⟩ := by decide
theorem test_flagsFor_O2 : answer (.flagsFor .nl) on = ⟨.ok, 0x28⟩ := by decide
theorem test_flagsFor_O3 : answer (.flagsFor .fp) on = ⟨.ok, 0x88⟩ := by decide
theorem test_effectiveSize_S3 : answer (.effectiveSize 300 200 .nl) on = ⟨.ok, 0x00C8012C⟩ := by decide
theorem test_effectiveSize_O5 : answer (.effectiveSize 0 65535 .nl) on = ⟨.ok, 0xFFFF0000⟩ := by decide
theorem test_getScreenSize_O7 : answer .getScreenSize on = ⟨.ok, 0x00F00140⟩ := by decide
theorem test_getScreenSize_O8 : answer .getScreenSize readyNL = ⟨.ok, 0x014000F0⟩ := by decide

/-- RESET from STREAMING: `CS(1)`, then the fifteen events; the orientation is kept (vector X8). -/
theorem test_reset_X8 :
    let t := after .reset (streaming .fl 76799)
    t.trace = [.cs true, .rst false, .wait .resetHold, .rst true, .wait .resetSettle, .cs false, .tx false 0x11,
      .cs true, .wait .sleepOut, .cs false, .tx false 0x3A, .tx true 0x55, .cs true, .cs false, .tx false 0x29,
      .cs true] ∧
    t.phase = .ready ∧ t.rem = 0 ∧ t.csN = true ∧ t.dc = some false ∧ t.rstN = some true ∧ t.orient = .fl ∧
    t.ew = 320 ∧ t.eh = 240 ∧ t.rsps = [⟨.ok, 0⟩] := by decide

/-- RESET from power-on whose third draw fails (vector T3). -/
theorem test_reset_T3 :
    let t := after .reset (failing 2 on)
    t.trace = [.rst false, .wait .resetHold, .rst true, .wait .resetSettle, .cs false, .tx false 0x11, .cs true,
      .wait .sleepOut, .cs false, .tx false 0x3A, .txFail true 0x55, .cs true] ∧
    t.phase = .corrupt ∧ t.dc = some true ∧ t.rstN = some true ∧ t.rsps = [⟨.initializationError, 0⟩] := by decide

theorem test_setOrientation_X11 :
    let t := after (.setOrientation .nl) readyNL
    t.trace = [.cs false, .tx false 0x36, .tx true 0x28, .cs true] ∧ t.phase = .ready ∧ t.orient = .nl ∧
    t.ew = 320 ∧ t.eh = 240 ∧ t.rsps = [⟨.ok, 0⟩] := by decide

theorem test_setOrientation_T4 :
    let t := after (.setOrientation .nl) (failing 1 ready)
    t.trace = [.cs false, .tx false 0x36, .txFail true 0x28, .cs true] ∧ t.phase = .corrupt ∧ t.orient = .np ∧
    t.ew = 240 ∧ t.eh = 320 ∧ t.rsps = [⟨.transportError, 0⟩] := by decide

theorem test_setWindow_W13 :
    let t := after (.setWindow 100 50 299 149) readyNL
    t.trace = [.cs false, .tx false 0x2A, .tx true 0x00, .tx true 0x64, .tx true 0x01, .tx true 0x2B, .cs true,
      .cs false, .tx false 0x2B, .tx true 0x00, .tx true 0x32, .tx true 0x00, .tx true 0x95, .cs true,
      .cs false, .tx false 0x2C] ∧
    t.phase = .streaming ∧ t.rem = 20000 ∧ t.csN = false ∧ t.dc = some true ∧ t.rsps = [⟨.ok, 20000⟩] := by decide

/-- The seventeen events of a SET_WINDOW whose memory-write byte fails (vector T6, log 14). -/
theorem test_setWindow_T6 :
    let t := after (.setWindow 10 20 30 40) (failing 10 ready)
    t.trace = [.cs false, .tx false 0x2A, .tx true 0x00, .tx true 0x0A, .tx true 0x00, .tx true 0x1E, .cs true,
      .cs false, .tx false 0x2B, .tx true 0x00, .tx true 0x14, .tx true 0x00, .tx true 0x28, .cs true,
      .cs false, .txFail false 0x2C, .cs true] ∧
    t.phase = .corrupt ∧ t.rem = 0 ∧ t.csN = true ∧ t.dc = some false ∧ t.rsps = [⟨.transportError, 0⟩] := by decide

theorem test_streamPixel_X7 :
    let t := after (.streamPixel 0x1234) (streaming .nl 76800)
    t.trace = [.tx true 0x34, .tx true 0x12] ∧ t.phase = .streaming ∧ t.rem = 76799 ∧ t.csN = false ∧
    t.rsps = [⟨.ok, 76799⟩] := by decide

theorem test_streamPixel_T8 :
    let t := after (.streamPixel 0x00F8) (failing 1 (streaming .nl 2))
    t.trace = [.tx true 0xF8, .txFail true 0x00, .cs true] ∧ t.phase = .corrupt ∧ t.rem = 0 ∧ t.csN = true ∧
    t.rsps = [⟨.transportError, 0⟩] := by decide

theorem test_getStatus_G4_G7 :
    answer .getStatus (streaming .nl 76800) = ⟨.ok, 0x06⟩ ∧ answer .getStatus { readyNL with orient := .fl } = ⟨.ok, 0x1D⟩ := by
  decide
theorem test_getRemaining_G4 : answer .getRemaining (streaming .nl 76800) = ⟨.ok, 0x00012C00⟩ := by decide

/-! ### The host's question: the word as the first instruction after reset -/

theorem test_reset_runs_a_table_word_first :
    goesOn (step (State.reset.withFetchWord 72 0x200000000000000000)) = true ∧
    goesOn (step (State.reset.withFetchWord 72 0x220000000000000000)) = true ∧
    goesOn (step (State.reset.withFetchWord 72 0x240000000000000000)) = true := by decide

/-! ### Witnesses: the hypotheses of every obligation can be met together -/

theorem inv_ready : Inv ready := by constructor <;> decide
theorem inv_readyNL : Inv readyNL := by constructor <;> decide
theorem inv_streaming : Inv (streaming .nl 2) := by constructor <;> decide
theorem inv_last_pixel : Inv (streaming .nl 1) := by constructor <;> decide
theorem inv_full_window : Inv (streaming .fl 76800) := by constructor <;> decide
theorem inv_corrupt : Inv corrupt := by constructor <;> decide
theorem inv_on : Inv on := by constructor <;> decide

theorem witness_EncodeOfDecodeIsTheWord : decode 0x2200640032012B0095 = .ok (.setWindow 100 50 299 149) := rfl

theorem witness_TableRowSelectsItsOperation :
    ∃ t ∈ opcodeTable, t.selects 0x22FFFFFFFFFFFFFFFF = true ∧ t.selects 0x010000000000000000 = false :=
  ⟨_, .tail _ (.tail _ (.tail _ (.tail _ (.tail _ (.tail _ (.tail _ (.tail _ (.head _)))))))), by decide⟩

theorem witness_IllegalWordIsRefused :
    (present 0x030000000001000000 on).requests = [0x030000000001000000] ∧
    ReqWord.WellFormed 0x030000000001000000 = false := by decide

theorem witness_StepExecutesTheDecodedRequest :
    (present 0x240000000000000000 on).requests = [0x240000000000000000] ∧ decode 0x240000000000000000 = .ok .getStatus :=
  ⟨rfl, rfl⟩

theorem witness_StepExecutesTheStoredTableWord : decodeTableWord 72 0x210003000000000000 = some (.setOrientation .fl) := by
  decide

theorem witness_NothingHappensWithoutARequest : State.reset.requests = [] := rfl

theorem witness_OneResponsePerOperation :
    ∃ t : State, exec (.streamPixel 0) ready = .next t ∧ (lastResponse t).err ≠ .ok := ⟨_, rfl, by decide⟩

theorem witness_DecodeAnswersTheWidenedChannels :
    (31#5 = BitVec.extractLsb' 3 5 0xE0F8#16) ∧
    (7#6 = BitVec.extractLsb' 0 3 0xE0F8#16 ++ BitVec.extractLsb' 13 3 0xE0F8#16) ∧
    (0#5 = BitVec.extractLsb' 8 5 0xE0F8#16) ∧ (0xFF#8 = if 31#5 = 31 then 0xFF else 31#5 ++ 0#3) ∧
    (28#8 = if 7#6 = 63 then 0xFF else 7#6 ++ 0#2) ∧ (0#8 = if 0#5 = 31 then 0xFF else 0#5 ++ 0#3) := by decide

theorem witness_CodecLaws :
    (⟨0, 255, 248⟩ : Rgb).r = 0 ∧ (⟨0, 255, 248⟩ : Rgb).g = 255 ∧
    (248 ≤ (⟨254, 252, 248⟩ : Rgb).r.toNat ∧ (⟨254, 252, 248⟩ : Rgb).r.toNat ≤ 254) ∧
    (252 ≤ (⟨254, 252, 248⟩ : Rgb).g.toNat ∧ (⟨254, 252, 248⟩ : Rgb).g.toNat ≤ 254) ∧
    ¬(248 ≤ (⟨254, 252, 247⟩ : Rgb).b.toNat ∧ (⟨254, 252, 247⟩ : Rgb).b.toNat ≤ 254) ∧
    ¬(252 ≤ (⟨255, 251, 255⟩ : Rgb).g.toNat ∧ (⟨255, 251, 255⟩ : Rgb).g.toNat ≤ 254) := by decide

theorem witness_CodecOperationsArePure : on.cfg.tolGShift = 1 := rfl

theorem witness_FlagsTableKeepsTheSourceConstraints : cfg.wf = true := by decide

theorem witness_StandardConfigurationIsWellFormed : (1 : Slot) ≠ 0 ∧ (65535 : Slot) ≠ 0 := by decide

theorem witness_GetScreenSizeAnswersTheCachedSize : Inv readyNL := inv_readyNL

theorem witness_GetRemainingAnswersRem : Inv corrupt ∧ corrupt.phase ≠ .streaming := ⟨inv_corrupt, by decide⟩

theorem witness_ResetPulsesAndInitialises :
    (streaming .nl 2).pinsOk = true ∧ (streaming .nl 2).csN = false ∧
    (streaming .nl 2).channelOk (byteCount (initEvents (streaming .nl 2).cfg.initSeq)) = true := by decide

theorem witness_ResetWithoutPinsTouchesNothing : ({ on with pins := ⟨[false], 0⟩ } : State).pinsOk = false := by decide

theorem witness_ResetCutByAFailingByte :
    (failing 3 on).pinsOk = true ∧ 3 < byteCount (initEvents (failing 3 on).cfg.initSeq) ∧
    (failing 3 on).channelFailsAt 3 = true ∧ (failing 0 on).channelFailsAt 0 = true := by decide

theorem witness_SetOrientationSendsThenCaches :
    ready.phase = .ready ∧ ready.csN = true ∧ ready.channelOk 2 = true := by decide

theorem witness_SetWindowOpensTheStream :
    ready.phase = .ready ∧ ready.csN = true ∧ (239#16).toNat ≤ (239#16).toNat ∧ (239#16).toNat < ready.ew.toNat ∧
    (319#16).toNat ≤ (319#16).toNat ∧ (319#16).toNat < ready.eh.toNat ∧ ready.channelOk 11 = true := by decide

theorem witness_SetWindowOutsideTheScreenIsRefused :
    ready.phase = .ready ∧
    ¬((0#16).toNat ≤ (240#16).toNat ∧ (240#16).toNat < ready.ew.toNat ∧ (0#16).toNat ≤ (0#16).toNat ∧
      (0#16).toNat < ready.eh.toNat) ∧
    ¬((0#16).toNat ≤ (0#16).toNat ∧ (0#16).toNat < ready.ew.toNat ∧ (7#16).toNat ≤ (6#16).toNat ∧
      (6#16).toNat < ready.eh.toNat) := by decide

theorem witness_StreamPixelSendsAndCounts_more :
    (streaming .nl 2).phase = .streaming ∧ (streaming .nl 2).csN = false ∧ 0 < (streaming .nl 2).rem.toNat ∧
    (streaming .nl 2).channelOk 2 = true ∧ 1 < (streaming .nl 2).rem.toNat := by decide

theorem witness_StreamPixelSendsAndCounts_last :
    (streaming .nl 1).phase = .streaming ∧ (streaming .nl 1).csN = false ∧ 0 < (streaming .nl 1).rem.toNat ∧
    (streaming .nl 1).channelOk 2 = true ∧ (streaming .nl 1).rem.toNat = 1 := by decide

theorem witness_TransportFailureCutsTheOperation_orientation :
    (failing 1 ready).phase = .ready ∧ (failing 1 ready).csN = true ∧ 1 < 2 ∧
    (failing 1 ready).channelFailsAt 1 = true := by decide

theorem witness_TransportFailureCutsTheOperation_window :
    (failing 10 ready).phase = .ready ∧ (failing 10 ready).csN = true ∧
    insideScreen (failing 10 ready).ew (failing 10 ready).eh 0 0 239 319 = true ∧ 10 < 11 ∧
    (failing 10 ready).channelFailsAt 10 = true := by decide

theorem witness_TransportFailureCutsTheOperation_pixel :
    (failing 0 (streaming .nl 2)).phase = .streaming ∧ (failing 0 (streaming .nl 2)).csN = false ∧ 0 < 2 ∧
    (failing 0 (streaming .nl 2)).channelFailsAt 0 = true := by decide

theorem witness_AdmissionByPhase :
    admitted (.streamPixel 0) ready.phase = false ∧ admitted (.streamPixel 0) (streaming .nl 1).phase = true ∧
    ∃ t : State, exec (.streamPixel 0) (streaming .nl 1) = .next t := ⟨rfl, rfl, exec_next _ _⟩

theorem witness_PhaseMovesByTheTable :
    ∃ t : State, exec (.setWindow 0 0 239 319) ready = .next t ∧ t.phase = .streaming := ⟨_, rfl, by decide⟩

theorem witness_ErrorsAreReportedByPriority :
    ∃ s t : State, s.requests = [0x220005000000040000] ∧ step s = .next t ∧ (lastResponse t).err = .sequenceError :=
  ⟨present 0x220005000000040000 on, _, rfl, rfl, by decide⟩

theorem witness_ErrorsAreReportedByPriority_reset :
    decode 0x200000000000000000 = .ok .reset ∧ ({ on with pins := ⟨[false], 0⟩ } : State).pinsOk = false :=
  ⟨rfl, by decide⟩

theorem witness_InvariantsHoldAtPowerOn : cfg.wf = true := by decide

theorem witness_StepKeepsTheInvariants :
    ∃ s t : State, Inv s ∧ step s = .next t ∧ t ≠ s :=
  ⟨present 0x230000000000000000 (streaming .nl 1), _, by constructor <;> decide, rfl, by decide⟩

theorem witness_StepKeepsTheFraming :
    ∃ s t : State, Inv s ∧ Framed s ∧ step s = .next t ∧ t ≠ s :=
  ⟨present 0x220000000000EF013F ready, _, by constructor <;> decide, by unfold Framed; decide, rfl, by decide⟩

theorem witness_StepKeepsTheFraming_inside_a_stream :
    Framed { streaming .nl 2 with trace := [.cs false, .tx false 0x2C] } := by unfold Framed; decide

theorem witness_NoStepWritesTheConfiguration : ∃ t : State, step (present 0x200000000000000000 on) = .next t :=
  exec_next .reset on

theorem witness_GeometryIsWrittenBySetOrientationOnly :
    ∃ t : State, exec (.setOrientation .fl) ready = .next t ∧ t.orient ≠ ready.orient := ⟨_, rfl, by decide⟩

theorem witness_ResetPinIsDrivenByResetOnly :
    (∃ t : State, exec .reset on = .next t ∧ on.pinsOk = true ∧ t.rstN ≠ on.rstN) ∧
    ∃ t : State, exec .reset { on with pins := ⟨[false], 0⟩ } = .next t ∧
      ({ on with pins := ⟨[false], 0⟩ } : State).pinsOk = false :=
  ⟨⟨_, rfl, by decide, by decide⟩, _, rfl, by decide⟩

theorem witness_OnlyResetLeavesCorrupt :
    corrupt.phase = .corrupt ∧ ∃ t : State, exec .reset corrupt = .next t ∧ t.phase = .ready :=
  ⟨rfl, _, rfl, by decide⟩

theorem witness_EventsPerOperationAreBounded :
    Inv (failing 10 ready) ∧ ∃ t : State, exec (.setWindow 10 20 30 40) (failing 10 ready) = .next t ∧
      t.trace.length = 17 := ⟨by constructor <;> decide, _, rfl, by decide⟩

theorem witness_PixelCountNeverOverflows : insideScreen 65535 65535 0 0 65534 65534 = true := by decide

theorem witness_CompleteRunOwesNothing : Inv ready ∧ ready.complete := ⟨inv_ready, rfl⟩

/-- A panel whose selected window and stream are known. -/
def primed : List Event :=
  [.cs false, .tx false 0x2A, .tx true 0, .tx true 3, .tx true 0, .tx true 4, .cs true,
    .cs false, .tx false 0x2B, .tx true 0, .tx true 5, .tx true 0, .tx true 5, .cs true, .cs false, .tx false 0x2C]

theorem witness_SetWindowPrimesThePanel :
    Inv ready ∧ ready.phase = .ready ∧ (panelOf ready).midStream = false ∧
    ∃ t : State, exec (.setWindow 0 0 0 0) ready = .next t ∧ (lastResponse t).err = .ok :=
  ⟨inv_ready, rfl, by decide, _, rfl, by decide⟩

theorem witness_SetOrientationSetsThePanelsFlags :
    Inv ready ∧ (panelOf ready).midStream = false ∧
    ∃ t : State, exec (.setOrientation .nl) ready = .next t ∧ (lastResponse t).err = .ok :=
  ⟨inv_ready, by decide, _, rfl, by decide⟩

theorem witness_StreamPixelLandsInRasterOrder :
    ∃ s t : State, Inv s ∧ (panelOf s).win = some ⟨3, 5, 4, 5⟩ ∧ (panelOf s).k = some 0 ∧
      0 < (⟨3, 5, 4, 5⟩ : Window).count ∧ (panelOf s).rx = some (s.cfg.cmdMemoryWrite, []) ∧
      exec (.streamPixel 0x1234) s = .next t ∧ (lastResponse t).err = .ok :=
  ⟨{ streaming .nl 2 with trace := primed }, _, by constructor <;> decide, by decide, by decide, by decide, by decide,
    rfl, by decide⟩

/-- A pixel of the panel after one step: the natural value, at the first raster position (R37). -/
theorem test_panel_pixel_R37 :
    (panelOf (after (.streamPixel 0x1234) { streaming .nl 2 with trace := primed })).mem = [((3, 5), 0x3412)] := by decide

theorem witness_PanelIsUnknownAfterAFailure :
    (∃ t : State, exec (.streamPixel 0) (failing 1 (streaming .nl 2)) = .next t ∧
      (lastResponse t).err = .transportError) ∧
    ∃ t : State, exec .reset (failing 1 on) = .next t ∧ (failing 1 on).pinsOk = true ∧
      (lastResponse t).err = .initializationError :=
  ⟨⟨_, rfl, by decide⟩, _, rfl, by decide, by decide⟩

theorem witness_PanelFlagsAreUnknownAfterReset :
    Inv readyNL ∧ hasCommand readyNL.cfg.cmdMemoryAccessControl readyNL.cfg.initSeq = false ∧
    ∃ t : State, exec .reset readyNL = .next t ∧ (lastResponse t).err = .ok :=
  ⟨inv_readyNL, by decide, _, rfl, by decide⟩

theorem witness_ConstructFromPowerOn :
    on.pinsOk = true ∧ on.channelOk (byteCount (initEvents cfg.initSeq) + 2) = true := by decide

/-- READY on a screen of one by two pixels. -/
def small : State :=
  { ready with cfg := .standard 1 2 ⟨0, 0, 0, []⟩, ew := 1, eh := 2 }

/-- The driver of that screen, its frame buffer not drawn yet. -/
def smallDriver : Driver := ⟨small, .fresh 0 1 2⟩

theorem witness_DrawPixelSourceFillsTheFrameBuffer :
    (⟨1, 2, [⟨255, 0, 0⟩, ⟨0, 0, 255⟩]⟩ : PixelSource).width = smallDriver.pxf.ew.toNat ∧
    (⟨1, 2, [⟨255, 0, 0⟩, ⟨0, 0, 255⟩]⟩ : PixelSource).height = smallDriver.pxf.eh.toNat ∧
    (⟨1, 2, [⟨255, 0, 0⟩, ⟨0, 0, 255⟩]⟩ : PixelSource).pixels[1]? = some ⟨0, 0, 255⟩ ∧
    (⟨2, 2, []⟩ : PixelSource).width ≠ smallDriver.pxf.ew.toNat := by decide

theorem witness_SendFrameSendsTheWholeFrame :
    smallDriver.pxf = small ∧ small.phase = .ready ∧ small.csN = true ∧ 2 = small.ew.toNat * small.eh.toNat ∧
    small.channelOk (11 + 2 * 2) = true := by refine ⟨rfl, ?_⟩; decide

theorem witness_SendFrameShowsTheFrameOnThePanel :
    smallDriver.pxf = small ∧ Inv small ∧ small.phase = .ready ∧ (panelOf small).midStream = false ∧
    small.channelOk (11 + 2 * (small.ew.toNat * small.eh.toNat)) = true ∧ 0 < small.ew.toNat ∧ 1 < small.eh.toNat :=
  ⟨rfl, by constructor <;> decide, by decide⟩

theorem witness_OnlyAChangeOfWidthLosesTheFrame :
    (smallDriver.issue (.setOrientation .nl)).pxf.ew ≠ smallDriver.pxf.ew := by decide

/-- A drawn frame buffer is lost with the orientation's swap, and kept by a request that keeps `EW` (R115). -/
theorem test_frame_buffer_R115 :
    (Driver.issue (.setOrientation .nl) ⟨small, ⟨0, [1, 2]⟩⟩).fb.losses = 1 ∧
    (Driver.issue (.setOrientation .fp) ⟨small, ⟨0, [1, 2]⟩⟩).fb = ⟨0, [1, 2]⟩ := by decide

theorem witness_ConstructFailsWithItsFirstError :
    ({ on with pins := ⟨[false], 0⟩ } : State).pinsOk = false ∧
    (failing 5 on).pinsOk = true ∧ (failing 5 on).channelOk (byteCount (initEvents cfg.initSeq) + 2) = false := by
  decide

/-! ### What the panel view does where the spec is silent (log 9) -/

/-- The two pixels of that window, and the release of chip select. -/
def filled : List Event := primed ++ [.tx true 1, .tx true 2, .tx true 3, .tx true 4, .cs true]

/-- A command R36 does not list makes all unknown (R36, D33). -/
theorem test_panel_other_command_R36 :
    panelOf { ready with trace := filled } ≠ .unknown ∧
    panelOf { ready with trace := filled ++ [.cs false, .tx false 0x29, .cs true] } = .unknown := by decide

/-- New flags leave neither a pixel nor a window known (R41, N15). -/
theorem test_panel_new_flags_R41 :
    panelOf (after (.setOrientation .nl) { ready with trace := filled }) =
      { Panel.unknown with flags := some 0x28 } := by decide

/-- Reversed bounds are latched as no window, and pixels may still be owed to it (R37, R38). -/
theorem test_panel_reversed_window_R37 :
    (Panel.selected { Panel.unknown with cols := some (4, 3), rows := some (0, 0) }) = none ∧
    Panel.midStream { Panel.unknown with k := some 0 } = true ∧ Panel.midStream .unknown = false := by decide

end Sys2Proof.Tests
end

section
/-! PROOFS. The scope chapter (spec/00_scope.md): one response per operation (R9, R52, R121), what a step executes (R44,
R50), and the default configuration (R6, R59, R81). -/

namespace Sys2Proof.Machine

/-! ### A channel operation that ended, in either way -/

theorem ChannelSpec.only_of_sent {s u : State} {r : Transfer} (h : ChannelSpec s r) (hr : r = .sent u) :
    OnlyChannel s u := by
  subst hr
  exact h.only

theorem ChannelSpec.only_of_failed {s u : State} {r : Transfer} (h : ChannelSpec s r) (hr : r = .failed u) :
    OnlyChannel s u := by
  subst hr
  exact h.only

/-! ### One response per operation -/

/-- The response history of `t` is that of `s` with one response more, which carries result 0 with an error (R19, R121). -/
def AddsOneResponse (s t : State) : Prop :=
  ∃ r : Response, t.rsps = s.rsps ++ [r] ∧ (r.err ≠ .ok → r.res = 0)

theorem addsOneResponse_succeed {s u : State} (h : u.rsps = s.rsps) (v : Word) : AddsOneResponse s (succeed v u) :=
  ⟨⟨.ok, v⟩, by rw [succeed_rsps, h], fun he => absurd rfl he⟩

theorem addsOneResponse_fail {s u : State} (h : u.rsps = s.rsps) (e : Err) : AddsOneResponse s (fail e u) :=
  ⟨⟨e, 0⟩, by rw [fail_rsps, h], fun _ => rfl⟩

/-- RESET's init sequence starts with the history untouched (R91). -/
theorem resetStart_rsps (s : State) : (resetStart s).rsps = s.rsps := by
  simp [resetStart, resetPulse]

theorem countPixel_rsps (s : State) : (countPixel s).rsps = s.rsps := by
  simp [countPixel_only]

theorem exec_reset_addsOneResponse {s t : State} (h : exec .reset s = .next t) : AddsOneResponse s t := by
  have hspec := channelSpec_runInit s.cfg.initSeq (resetStart s)
  obtain ⟨-, rfl⟩ | ⟨-, u, hu, rfl⟩ | ⟨-, u, hu, rfl⟩ := exec_reset_cases h
  · exact addsOneResponse_fail (samplePins_rsps s) _
  · exact addsOneResponse_succeed ((hspec.only_of_sent hu).rsps.trans (resetStart_rsps s)) _
  · exact addsOneResponse_fail ((hspec.only_of_failed hu).rsps.trans (resetStart_rsps s)) _

theorem exec_setOrientation_addsOneResponse {o : Orientation} {s t : State}
    (h : exec (.setOrientation o) s = .next t) : AddsOneResponse s t := by
  have hspec := channelSpec_command s.cfg.cmdMemoryAccessControl [flagsOf s.cfg.flagsTable o] s
  obtain ⟨-, rfl⟩ | ⟨-, u, hu, rfl⟩ | ⟨-, u, hu, rfl⟩ := exec_setOrientation_cases h
  · exact addsOneResponse_fail rfl _
  · exact addsOneResponse_succeed (hspec.only_of_sent hu).rsps _
  · exact addsOneResponse_fail (hspec.only_of_failed hu).rsps _

theorem exec_setWindow_addsOneResponse {x0 y0 x1 y1 : Slot} {s t : State}
    (h : exec (.setWindow x0 y0 x1 y1) s = .next t) : AddsOneResponse s t := by
  have hspec := channelSpec_addressWindow x0 y0 x1 y1 s
  obtain ⟨-, rfl⟩ | ⟨-, -, rfl⟩ | ⟨-, -, u, hu, rfl⟩ | ⟨-, -, u, hu, rfl⟩ := exec_setWindow_cases h
  · exact addsOneResponse_fail rfl _
  · exact addsOneResponse_fail rfl _
  · exact addsOneResponse_succeed (hspec.only_of_sent hu).rsps _
  · exact addsOneResponse_fail (hspec.only_of_failed hu).rsps _

theorem exec_streamPixel_addsOneResponse {p : Slot} {s t : State}
    (h : exec (.streamPixel p) s = .next t) : AddsOneResponse s t := by
  have hspec := channelSpec_sendAll (pixelBytes p) (driveDC true s)
  obtain ⟨-, rfl⟩ | ⟨-, u, hu, rfl⟩ | ⟨-, u, hu, rfl⟩ := exec_streamPixel_cases h
  · exact addsOneResponse_fail rfl _
  · exact addsOneResponse_succeed ((countPixel_rsps u).trans (hspec.only_of_sent hu).rsps) _
  · exact addsOneResponse_fail (hspec.only_of_failed hu).rsps _

theorem exec_readsOnly_addsOneResponse {i : Instr} {s t : State} (hi : readsOnly i = true)
    (h : exec i s = .next t) : AddsOneResponse s t := by
  obtain ⟨v, rfl⟩ := exec_readsOnly hi h
  exact addsOneResponse_succeed rfl v

theorem exec_addsOneResponse {i : Instr} {s t : State} (h : exec i s = .next t) : AddsOneResponse s t := by
  cases i with
  | reset => exact exec_reset_addsOneResponse h
  | setOrientation o => exact exec_setOrientation_addsOneResponse h
  | setWindow x0 y0 x1 y1 => exact exec_setWindow_addsOneResponse h
  | streamPixel p => exact exec_streamPixel_addsOneResponse h
  | encode | decode | nearlyEqual | flagsFor | effectiveSize | getScreenSize | getStatus | getRemaining =>
    exact exec_readsOnly_addsOneResponse rfl h

/-- Settles O10: every outcome of an operation is `succeed` or `fail` of a state that channel activity reached, and channel
activity leaves the responses alone. -/
theorem oneResponsePerOperation : Obligations.OneResponsePerOperation :=
  fun _ _ _ h => exec_addsOneResponse h

/-! ### What a step executes -/

/-- The table's decoder reads an operation exactly where the decoder of request words does (R50). -/
theorem decodeTableWord_eq_some_iff {nbits w : Nat} {i : Instr} :
    decodeTableWord nbits w = some i ↔ decode (tableWord nbits w) = .ok i := by
  cases h : decode (tableWord nbits w) <;> simp [decodeTableWord, h]

/-- Settles O6: the word is accepted and its operation executed in the state without it (R44). -/
theorem stepExecutesTheDecodedRequest : Obligations.StepExecutesTheDecodedRequest := by
  intro s w rest i hs hd
  rw [step_of_requests hs, hd]

/-- Settles O7: the stored word is the one presented, and accepting it gives back the state before. -/
theorem stepExecutesTheStoredTableWord : Obligations.StepExecutesTheStoredTableWord := by
  intro s nbits w i h
  have hd : decode (tableWord nbits w) = .ok i := decodeTableWord_eq_some_iff.mp h
  rw [State.withFetchWord, step_present, hd]

end Sys2Proof.Machine

namespace Sys2Proof

/-! ### The default configuration -/

/-- The constraints on a configuration, one by one (R6, R59, R81). -/
theorem Cfg.wf_iff (c : Cfg) : c.wf = true ↔
    c.sx ≠ 0 ∧ c.sy ≠ 0 ∧ c.commandBytes.Nodup ∧ c.flagsTable.wf = true ∧
    hasCommand c.cmdSleepOut c.initSeq = true ∧ hasCommand c.cmdPixelFormatSet c.initSeq = true ∧
    hasCommand c.cmdDisplayOn c.initSeq = true := by
  simp only [Cfg.wf, Bool.and_eq_true, decide_eq_true_eq, and_assoc]

/-- The default command bytes differ pairwise (R6, R59). -/
theorem Cfg.standard_commandBytes_nodup (sx sy : Slot) (d : Durations) :
    (Cfg.standard sx sy d).commandBytes.Nodup := by
  simp [Cfg.commandBytes, Cfg.standard]

/-- The default flags table keeps the constraints of R81 (R82). -/
theorem Cfg.standard_flagsTable_wf (sx sy : Slot) (d : Durations) : (Cfg.standard sx sy d).flagsTable.wf = true := by
  change FlagsTable.wf ⟨0x48, 0x28, 0x88, 0xE8⟩ = true
  decide

/-- Settles O18: the sizes are the hypotheses, and the init sequence of R92 sends the three commands R6 requires. -/
theorem standardConfigurationIsWellFormed : Obligations.StandardConfigurationIsWellFormed := by
  intro sx sy d hx hy
  rw [Cfg.wf_iff]
  have hsleep : hasCommand 0x11 (Cfg.standard sx sy d).initSeq = true := rfl
  have hformat : hasCommand 0x3A (Cfg.standard sx sy d).initSeq = true := rfl
  have hdisplay : hasCommand 0x29 (Cfg.standard sx sy d).initSeq = true := rfl
  exact ⟨hx, hy, Cfg.standard_commandBytes_nodup sx sy d, Cfg.standard_flagsTable_wf sx sy d,
    hsleep, hformat, hdisplay⟩

end Sys2Proof
end

section
/-! PROOFS. The state chapter (spec/10_state.md): what a step can do (R9, R55), which operations write the
configuration, the geometry and the reset pin (R13, R14, R18, R25), the invariants of R22, and power-on (R23). -/

namespace Sys2Proof.Machine

/-! ### What a step can do -/

/-- The three outcomes of a step: no request waits, the oldest word is illegal, or it spells an operation (R9, R55). -/
theorem step_cases {s t : State} (h : step s = .next t) :
    (s.requests = [] ∧ t = s) ∨
    (∃ w rest r, s.requests = w :: rest ∧ decode w = .error r ∧ t = refuseIllegal { s with requests := rest }) ∨
    (∃ w rest i, s.requests = w :: rest ∧ decode w = .ok i ∧ exec i { s with requests := rest } = .next t) := by
  cases hq : s.requests with
  | nil =>
    rw [step_idle hq] at h
    exact .inl ⟨rfl, (next_injective h).symm⟩
  | cons w rest =>
    rw [step_of_requests hq] at h
    cases hd : decode w with
    | error r =>
      rw [hd] at h
      exact .inr (.inl ⟨w, rest, r, rfl, hd, (next_injective h).symm⟩)
    | ok i =>
      rw [hd] at h
      exact .inr (.inr ⟨w, rest, i, rfl, hd, h⟩)

/-! ### The settings: the configuration and the geometry that SET_ORIENTATION caches -/

/-- The configuration and the cached geometry of `t` are those of `s` (R13, R14, R25). -/
structure SameSettings (s t : State) : Prop where
  cfg : t.cfg = s.cfg
  orient : t.orient = s.orient
  ew : t.ew = s.ew
  eh : t.eh = s.eh

theorem OnlyChannel.sameSettings {s t : State} (h : OnlyChannel s t) : SameSettings s t :=
  ⟨h.cfg, h.orient, h.ew, h.eh⟩

theorem SameSettings.trans {s t u : State} (h : SameSettings s t) (k : SameSettings t u) : SameSettings s u :=
  ⟨k.cfg.trans h.cfg, k.orient.trans h.orient, k.ew.trans h.ew, k.eh.trans h.eh⟩

/-- A response changes no setting. -/
theorem SameSettings.respond {s t : State} (h : SameSettings s t) (e : Err) (v : Word) :
    SameSettings s (respond e v t) :=
  ⟨h.cfg, h.orient, h.ew, h.eh⟩

theorem sameSettings_resetStart (s : State) : SameSettings s (resetStart s) := by
  constructor <;> simp [resetStart_only]

theorem sameSettings_countPixel (s : State) : SameSettings s (countPixel s) := by
  constructor <;> simp [countPixel_only]

theorem exec_reset_sameSettings {s t : State} (h : exec .reset s = .next t) : SameSettings s t := by
  have hspec := channelSpec_runInit s.cfg.initSeq (resetStart s)
  have hstart := sameSettings_resetStart s
  obtain ⟨-, rfl⟩ | ⟨-, u, hu, rfl⟩ | ⟨-, u, hu, rfl⟩ := exec_reset_cases h
  · exact ⟨rfl, rfl, rfl, rfl⟩
  · obtain ⟨hcfg, horient, hew, heh⟩ := hstart.trans (hspec.only_of_sent hu).sameSettings
    exact ⟨hcfg, horient, hew, heh⟩
  · exact (hstart.trans (hspec.only_of_failed hu).sameSettings).respond _ _

theorem exec_setWindow_sameSettings {x0 y0 x1 y1 : Slot} {s t : State}
    (h : exec (.setWindow x0 y0 x1 y1) s = .next t) : SameSettings s t := by
  have hspec := channelSpec_addressWindow x0 y0 x1 y1 s
  obtain ⟨-, rfl⟩ | ⟨-, -, rfl⟩ | ⟨-, -, u, hu, rfl⟩ | ⟨-, -, u, hu, rfl⟩ := exec_setWindow_cases h
  · exact ⟨rfl, rfl, rfl, rfl⟩
  · exact ⟨rfl, rfl, rfl, rfl⟩
  · obtain ⟨hcfg, horient, hew, heh⟩ := (hspec.only_of_sent hu).sameSettings
    exact ⟨hcfg, horient, hew, heh⟩
  · exact (hspec.only_of_failed hu).sameSettings.respond _ _

/-- The channel activity of STREAM_PIXEL, D/C driven high first, moves only the channel's side (R95). -/
theorem channelSpec_pixel (p : Slot) (s : State) : ChannelSpec s (sendAll (pixelBytes p) (driveDC true s)) :=
  .of_update (onlyChannel_driveDC true s) rfl rfl (channelSpec_sendAll _ _)

theorem exec_streamPixel_sameSettings {p : Slot} {s t : State} (h : exec (.streamPixel p) s = .next t) :
    SameSettings s t := by
  have hspec := channelSpec_pixel p s
  obtain ⟨-, rfl⟩ | ⟨-, u, hu, rfl⟩ | ⟨-, u, hu, rfl⟩ := exec_streamPixel_cases h
  · exact ⟨rfl, rfl, rfl, rfl⟩
  · exact ((hspec.only_of_sent hu).sameSettings.trans (sameSettings_countPixel u)).respond _ _
  · exact (hspec.only_of_failed hu).sameSettings.respond _ _

/-- No operation but SET_ORIENTATION writes a setting (R14, R25). -/
theorem exec_sameSettings {i : Instr} {s t : State} (hi : ∀ o, i ≠ .setOrientation o) (h : exec i s = .next t) :
    SameSettings s t := by
  cases i with
  | setOrientation o => exact absurd rfl (hi o)
  | reset => exact exec_reset_sameSettings h
  | setWindow x0 y0 x1 y1 => exact exec_setWindow_sameSettings h
  | streamPixel p => exact exec_streamPixel_sameSettings h
  | encode | decode | nearlyEqual | flagsFor | effectiveSize | getScreenSize | getStatus | getRemaining =>
    obtain ⟨v, rfl⟩ := exec_readsOnly rfl h
    exact ⟨rfl, rfl, rfl, rfl⟩

/-- SET_ORIENTATION keeps the settings, or succeeds and caches the geometry of its operand (R13, R14, R124). -/
theorem exec_setOrientation_settings {o : Orientation} {s t : State} (h : exec (.setOrientation o) s = .next t) :
    SameSettings s t ∨
    (t.cfg = s.cfg ∧ (lastResponse t).err = .ok ∧ t.orient = o ∧
      (t.ew, t.eh) = effectiveSize s.cfg.sx s.cfg.sy o) := by
  have hspec := channelSpec_command s.cfg.cmdMemoryAccessControl [flagsOf s.cfg.flagsTable o] s
  obtain ⟨-, rfl⟩ | ⟨-, u, hu, rfl⟩ | ⟨-, u, hu, rfl⟩ := exec_setOrientation_cases h
  · exact .inl ⟨rfl, rfl, rfl, rfl⟩
  · have hcfg : u.cfg = s.cfg := (hspec.only_of_sent hu).cfg
    exact .inr ⟨hcfg, by simp, rfl, by simp [hcfg]⟩
  · exact .inl ((hspec.only_of_failed hu).sameSettings.respond _ _)

/-- Settles O41: SET_ORIENTATION's own cases, and every other operation keeps the settings. -/
theorem geometryIsWrittenBySetOrientationOnly : Obligations.GeometryIsWrittenBySetOrientationOnly := by
  intro i s t h
  by_cases hi : ∃ o, i = .setOrientation o
  · obtain ⟨o, rfl⟩ := hi
    obtain hsame | ⟨-, hok, horient, hsize⟩ := exec_setOrientation_settings h
    · exact .inl ⟨hsame.orient, hsame.ew, hsame.eh⟩
    · exact .inr ⟨o, rfl, hok, horient, hsize⟩
  · have hsame := exec_sameSettings (fun o ho => hi ⟨o, ho⟩) h
    exact .inl ⟨hsame.orient, hsame.ew, hsame.eh⟩

theorem exec_cfg {i : Instr} {s t : State} (h : exec i s = .next t) : t.cfg = s.cfg := by
  by_cases hi : ∃ o, i = .setOrientation o
  · obtain ⟨o, rfl⟩ := hi
    obtain hsame | ⟨hcfg, -⟩ := exec_setOrientation_settings h
    · exact hsame.cfg
    · exact hcfg
  · exact (exec_sameSettings (fun o ho => hi ⟨o, ho⟩) h).cfg

/-- Settles O40: no outcome of a step writes the configuration. -/
theorem noStepWritesTheConfiguration : Obligations.NoStepWritesTheConfiguration := by
  intro s t h
  obtain ⟨-, rfl⟩ | ⟨w, rest, r, -, -, rfl⟩ | ⟨w, rest, i, -, -, hexec⟩ := step_cases h
  · rfl
  · rfl
  · have hcfg := exec_cfg hexec
    exact hcfg

/-! ### The reset pin -/

/-- RESET leaves the reset pin alone where its pin test fails, and at 1 where it passes (R18, R91). -/
theorem exec_reset_rstN {s t : State} (h : exec .reset s = .next t) :
    t.rstN = if s.pinsOk then some true else s.rstN := by
  have hspec := channelSpec_runInit s.cfg.initSeq (resetStart s)
  have hstart : (resetStart s).rstN = some true := by simp [resetStart_only]
  obtain ⟨hp, rfl⟩ | ⟨hp, u, hu, rfl⟩ | ⟨hp, u, hu, rfl⟩ := exec_reset_cases h
  · simp [hp]
  · simp [hp, (hspec.only_of_sent hu).rstN, hstart]
  · simp [hp, (hspec.only_of_failed hu).rstN, hstart]

theorem exec_setOrientation_rstN {o : Orientation} {s t : State} (h : exec (.setOrientation o) s = .next t) :
    t.rstN = s.rstN := by
  have hspec := channelSpec_command s.cfg.cmdMemoryAccessControl [flagsOf s.cfg.flagsTable o] s
  obtain ⟨-, rfl⟩ | ⟨-, u, hu, rfl⟩ | ⟨-, u, hu, rfl⟩ := exec_setOrientation_cases h
  · rfl
  · exact (hspec.only_of_sent hu).rstN
  · exact (hspec.only_of_failed hu).rstN

theorem exec_setWindow_rstN {x0 y0 x1 y1 : Slot} {s t : State} (h : exec (.setWindow x0 y0 x1 y1) s = .next t) :
    t.rstN = s.rstN := by
  have hspec := channelSpec_addressWindow x0 y0 x1 y1 s
  obtain ⟨-, rfl⟩ | ⟨-, -, rfl⟩ | ⟨-, -, u, hu, rfl⟩ | ⟨-, -, u, hu, rfl⟩ := exec_setWindow_cases h
  · rfl
  · rfl
  · exact (hspec.only_of_sent hu).rstN
  · exact (hspec.only_of_failed hu).rstN

theorem exec_streamPixel_rstN {p : Slot} {s t : State} (h : exec (.streamPixel p) s = .next t) : t.rstN = s.rstN := by
  have hspec := channelSpec_pixel p s
  obtain ⟨-, rfl⟩ | ⟨-, u, hu, rfl⟩ | ⟨-, u, hu, rfl⟩ := exec_streamPixel_cases h
  · rfl
  · have hcount : (countPixel u).rstN = u.rstN := by simp [countPixel_only]
    exact hcount.trans (hspec.only_of_sent hu).rstN
  · exact (hspec.only_of_failed hu).rstN

theorem exec_rstN_of_ne_reset {i : Instr} {s t : State} (hi : i ≠ .reset) (h : exec i s = .next t) :
    t.rstN = s.rstN := by
  cases i with
  | reset => exact absurd rfl hi
  | setOrientation o => exact exec_setOrientation_rstN h
  | setWindow x0 y0 x1 y1 => exact exec_setWindow_rstN h
  | streamPixel p => exact exec_streamPixel_rstN h
  | encode | decode | nearlyEqual | flagsFor | effectiveSize | getScreenSize | getStatus | getRemaining =>
    obtain ⟨v, rfl⟩ := exec_readsOnly rfl h
    rfl

/-- Settles O42: RESET drives the pin exactly where its pin test passes, and no other operation drives it. -/
theorem resetPinIsDrivenByResetOnly : Obligations.ResetPinIsDrivenByResetOnly := by
  intro i s t h
  by_cases hi : i = .reset
  · subst hi
    have hrst := exec_reset_rstN h
    refine ⟨fun hr => ?_, fun hr => by rw [hrst, if_pos hr.2]⟩
    have hp : s.pinsOk = false := hr.resolve_left fun hne => hne rfl
    rw [hrst, hp, if_neg Bool.false_ne_true]
  · have hrst := exec_rstN_of_ne_reset hi h
    exact ⟨fun _ => hrst, fun hr => absurd hr.1 hi⟩

/-! ### The invariants of R22 -/

/-- The part of the invariants that speaks of the settings alone (R14). -/
structure SetUp (s : State) : Prop where
  cfg_wf : s.cfg.wf = true
  geometry : (s.ew, s.eh) = effectiveSize s.cfg.sx s.cfg.sy s.orient

theorem Inv.setUp {s : State} (hi : Inv s) : SetUp s := ⟨hi.cfg_wf, hi.geometry⟩

theorem SetUp.of_sameSettings {s t : State} (hs : SetUp s) (h : SameSettings s t) : SetUp t := by
  obtain ⟨hwf, hgeo⟩ := hs
  obtain ⟨hcfg, horient, hew, heh⟩ := h
  exact ⟨by rw [hcfg, hwf], by rw [hcfg, horient, hew, heh, hgeo]⟩

theorem exec_setUp {i : Instr} {s t : State} (hs : SetUp s) (h : exec i s = .next t) : SetUp t := by
  by_cases hi : ∃ o, i = .setOrientation o
  · obtain ⟨o, rfl⟩ := hi
    obtain hsame | ⟨hcfg, -, horient, hsize⟩ := exec_setOrientation_settings h
    · exact hs.of_sameSettings hsame
    · exact ⟨by rw [hcfg, hs.cfg_wf], by rw [hcfg, horient, hsize]⟩
  · exact hs.of_sameSettings (exec_sameSettings (fun o ho => hi ⟨o, ho⟩) h)

/-- The invariants speak of neither the histories, nor the environment, nor the request port. -/
theorem Inv.of_same_registers {s t : State} (hi : Inv s)
    (h : { t with trace := s.trace, rsps := s.rsps, pins := s.pins, chan := s.chan, requests := s.requests } = s) :
    Inv t := by
  rw [← h] at hi
  exact ⟨hi.cfg_wf, hi.streaming_iff_rem, hi.streaming_iff_cs, hi.streaming_dc, hi.geometry, hi.rem_le, hi.driven⟩

/-- The invariants where no stream is open. -/
theorem inv_of_not_streaming {t : State} (hset : SetUp t) (hphase : t.phase ≠ .streaming) (hrem : t.rem = 0)
    (hcs : t.csN = true) (hdriven : t.phase ≠ .uninit → t.rstN = some true ∧ t.dc ≠ none) : Inv t where
  cfg_wf := hset.cfg_wf
  streaming_iff_rem := by simp [hphase, hrem]
  streaming_iff_cs := by simp [hphase, hcs]
  streaming_dc hp := absurd hp hphase
  geometry := hset.geometry
  rem_le := by simp [hrem]
  driven := hdriven

/-- The invariants where a stream is open. -/
theorem inv_of_streaming {t : State} (hset : SetUp t) (hphase : t.phase = .streaming) (hpos : 0 < t.rem.toNat)
    (hle : t.rem.toNat ≤ t.ew.toNat * t.eh.toNat) (hcs : t.csN = false) (hdc : t.dc = some true)
    (hrst : t.rstN = some true) : Inv t where
  cfg_wf := hset.cfg_wf
  streaming_iff_rem := by simp only [hphase, hpos]
  streaming_iff_cs := by simp only [hphase, hcs]
  streaming_dc _ := hdc
  geometry := hset.geometry
  rem_le := hle
  driven _ := ⟨hrst, by simp [hdc]⟩

theorem Inv.rem_eq_zero {s : State} (hi : Inv s) (hp : s.phase ≠ .streaming) : s.rem = 0 := by
  have hnot : ¬ 0 < s.rem.toNat := fun h => hp (hi.streaming_iff_rem.2 h)
  bv_omega

theorem Inv.csN_eq_true {s : State} (hi : Inv s) (hp : s.phase ≠ .streaming) : s.csN = true := by
  have hnot : ¬ s.csN = false := fun h => hp (hi.streaming_iff_cs.2 h)
  simpa using hnot

/-- A failed channel operation leaves the invariants standing, wherever the settings, `RST_N` and `DC` are in order
(R99, R124). -/
theorem inv_fail_of_failed {s u : State} {r : Transfer} {e : Err} (hspec : ChannelSpec s r) (hr : r = .failed u)
    (hset : SetUp (fail e u)) (hrst : s.rstN = some true) (hdc : u.dc ≠ none) : Inv (fail e u) := by
  obtain ⟨hphase, hrem, hcs⟩ := hspec.failed u hr
  exact inv_of_not_streaming hset (by simp [hphase]) hrem hcs
    fun _ => ⟨(hspec.only_of_failed hr).rstN.trans hrst, hdc⟩

/-- The same after an operation that the sequencer admits in READY or STREAMING, where both latches are driven. -/
theorem Inv.fail_of_failed {s u : State} {r : Transfer} {e : Err} (hi : Inv s) (hp : s.phase ≠ .uninit)
    (hspec : ChannelSpec s r) (hr : r = .failed u) (hset : SetUp (fail e u)) : Inv (fail e u) :=
  have ⟨hrst, hdc⟩ := hi.driven hp
  inv_fail_of_failed hspec hr hset hrst ((hspec.only_of_failed hr).dc hdc)

/-! ### The data/command level along a list of events -/

theorem dcAfter_some_ne_none (v : Bool) (es : List Event) : dcAfter (some v) es ≠ none := by
  induction es generalizing v with
  | nil => simp [dcAfter]
  | cons e es ih => cases e <;> exact ih _

/-- Events that write a byte leave the level specified (R17). -/
theorem dcAfter_ne_none_of_byteCount {es : List Event} (h : 0 < byteCount es) (d : Option Bool) :
    dcAfter d es ≠ none := by
  induction es generalizing d with
  | nil => simp at h
  | cons e es ih =>
    cases e with
    | tx v b => exact dcAfter_some_ne_none v es
    | txFail v b => exact dcAfter_some_ne_none v es
    | rst v => exact ih (by simpa [Event.isTx] using h) d
    | cs v => exact ih (by simpa [Event.isTx] using h) d
    | wait n => exact ih (by simpa [Event.isTx] using h) d

/-- So do events cut at a failing byte, whose level is that of the attempt (R99). -/
theorem dcAfter_cutAt_ne_none {es : List Event} {j : Nat} (h : j < byteCount es) (d : Option Bool) :
    dcAfter d (cutAt j es) ≠ none := by
  induction es generalizing j d with
  | nil => simp at h
  | cons e es ih =>
    cases e with
    | tx v b =>
      cases j with
      | zero => exact dcAfter_some_ne_none v [.cs true]
      | succ j => exact ih (by simpa [Event.isTx] using h) (some v)
    | txFail v b => exact dcAfter_some_ne_none v _
    | rst v => exact ih (by simpa [Event.isTx] using h) d
    | cs v => exact ih (by simpa [Event.isTx] using h) d
    | wait n => exact ih (by simpa [Event.isTx] using h) d

/-- An init sequence with a command step writes a byte (R6, R91). -/
theorem byteCount_initEvents_pos {c : Byte} {steps : List InitStep} (h : hasCommand c steps = true) :
    0 < byteCount (initEvents steps) := by
  induction steps with
  | nil => cases h
  | cons st rest ih =>
    cases st with
    | cmd c' ds => simp only [initEvents, byteCount_append, byteCount_commandEvents]; omega
    | wait n => simpa [initEvents, Event.isTx] using ih (by simpa [hasCommand] using h)

/-! ### What a channel operation has performed, read off its outcome -/

theorem Performs.eq_of_sent {f : State → Transfer} {a b : Bool} {es : List Event} (hf : Performs f a b es)
    {s u : State} (hs : s.csN = a) (h : f s = .sent u) : u = afterSent b es s := by
  rcases channelOk_or_failsAt s (byteCount es) with hok | ⟨j, hj, hfail⟩
  · rw [hf.sent s hs hok] at h
    exact (Transfer.sent.inj h).symm
  · rw [hf.cut s j hs hj hfail] at h
    cases h

theorem Performs.eq_of_failed {f : State → Transfer} {a b : Bool} {es : List Event} (hf : Performs f a b es)
    {s u : State} (hs : s.csN = a) (h : f s = .failed u) : ∃ j < byteCount es, u = afterCut es j s := by
  rcases channelOk_or_failsAt s (byteCount es) with hok | ⟨j, hj, hfail⟩
  · rw [hf.sent s hs hok] at h
    cases h
  · rw [hf.cut s j hs hj hfail] at h
    exact ⟨j, hj, (Transfer.failed.inj h).symm⟩

/-! ### Every operation keeps the invariants -/

theorem exec_reset_inv {s t : State} (hi : Inv s) (h : exec .reset s = .next t) : Inv t := by
  have hset := exec_setUp hi.setUp h
  have hperf := performs_runInit s.cfg.initSeq
  have hspec := channelSpec_runInit s.cfg.initSeq (resetStart s)
  have hcs : (resetStart s).csN = true := by simp [resetStart_only]
  have hrem : (resetStart s).rem = 0 := by simp [resetStart_only]
  have hrst : (resetStart s).rstN = some true := by simp [resetStart_only]
  obtain ⟨-, rfl⟩ | ⟨-, u, hu, rfl⟩ | ⟨-, u, hu, rfl⟩ := exec_reset_cases h
  · exact hi.of_same_registers rfl
  · obtain rfl := hperf.eq_of_sent hcs hu
    obtain ⟨-, -, -, -, hsleep, -, -⟩ := (Cfg.wf_iff s.cfg).1 hi.cfg_wf
    have hdc := dcAfter_ne_none_of_byteCount (byteCount_initEvents_pos hsleep) (resetStart s).dc
    exact inv_of_not_streaming hset (by simp) hrem rfl fun _ => ⟨hrst, hdc⟩
  · obtain ⟨j, hj, hcut⟩ := hperf.eq_of_failed hcs hu
    have hdc : u.dc ≠ none := by
      rw [hcut]
      exact dcAfter_cutAt_ne_none hj (resetStart s).dc
    exact inv_fail_of_failed hspec hu hset hrst hdc

theorem exec_setOrientation_inv {o : Orientation} {s t : State} (hi : Inv s)
    (h : exec (.setOrientation o) s = .next t) : Inv t := by
  have hset := exec_setUp hi.setUp h
  have hperf := performs_command s.cfg.cmdMemoryAccessControl [flagsOf s.cfg.flagsTable o]
  have hspec := channelSpec_command s.cfg.cmdMemoryAccessControl [flagsOf s.cfg.flagsTable o] s
  obtain ⟨-, rfl⟩ | ⟨hp, u, hu, rfl⟩ | ⟨hp, u, hu, rfl⟩ := exec_setOrientation_cases h
  · exact hi.of_same_registers rfl
  · have hns : s.phase ≠ .streaming := by simp [hp]
    obtain ⟨hrst, hdc⟩ := hi.driven (by simp [hp])
    have honly := hspec.only_of_sent hu
    obtain ⟨hphase, hrem⟩ := hspec.sent u hu
    have hcs : u.csN = true := by rw [hperf.eq_of_sent (hi.csN_eq_true hns) hu, afterSent_csN]
    exact inv_of_not_streaming hset (by simp [hphase, hns]) (hrem.trans (hi.rem_eq_zero hns)) hcs
      fun _ => ⟨honly.rstN.trans hrst, honly.dc hdc⟩
  · exact hi.fail_of_failed (by simp [hp]) hspec hu hset

/-- A window inside the screen has at least one pixel and at most the screen's (R94, R100). -/
theorem pixelCount_of_insideScreen {ew eh x0 y0 x1 y1 : Slot} (h : insideScreen ew eh x0 y0 x1 y1 = true) :
    0 < pixelCount x0 y0 x1 y1 ∧ pixelCount x0 y0 x1 y1 ≤ ew.toNat * eh.toNat := by
  simp only [insideScreen, Bool.and_eq_true, decide_eq_true_eq, BitVec.le_def, BitVec.lt_def] at h
  obtain ⟨⟨⟨hx, hw⟩, hy⟩, hh⟩ := h
  exact ⟨Nat.mul_pos (by omega) (by omega), Nat.mul_le_mul (by omega) (by omega)⟩

/-- A screen's pixels are counted in 32 bits (R15, R100). -/
theorem screen_lt (ew eh : Slot) : ew.toNat * eh.toNat < 2 ^ 32 := by
  have h := Nat.mul_lt_mul'' ew.isLt eh.isLt
  simpa using h

theorem exec_setWindow_inv {x0 y0 x1 y1 : Slot} {s t : State} (hi : Inv s)
    (h : exec (.setWindow x0 y0 x1 y1) s = .next t) : Inv t := by
  have hset := exec_setUp hi.setUp h
  have hspec := channelSpec_addressWindow x0 y0 x1 y1 s
  obtain ⟨-, rfl⟩ | ⟨-, -, rfl⟩ | ⟨hp, hin, u, hu, rfl⟩ | ⟨hp, -, u, hu, rfl⟩ := exec_setWindow_cases h
  · exact hi.of_same_registers rfl
  · exact hi.of_same_registers rfl
  · have hcs := hi.csN_eq_true (by simp [hp])
    obtain ⟨hrst, -⟩ := hi.driven (by simp [hp])
    obtain ⟨hpos, hle⟩ := pixelCount_of_insideScreen hin
    have hcount : (BitVec.ofNat 32 (pixelCount x0 y0 x1 y1)).toNat = pixelCount x0 y0 x1 y1 := by
      rw [BitVec.toNat_ofNat, Nat.mod_eq_of_lt (hle.trans_lt (screen_lt s.ew s.eh))]
    obtain rfl := (performs_addressWindow s.cfg x0 y0 x1 y1).eq_of_sent hcs hu
    exact inv_of_streaming hset rfl (hpos.trans_eq hcount.symm) (hcount.le.trans hle) rfl rfl hrst
  · exact hi.fail_of_failed (by simp [hp]) hspec hu hset

theorem exec_streamPixel_inv {p : Slot} {s t : State} (hi : Inv s) (h : exec (.streamPixel p) s = .next t) :
    Inv t := by
  have hset := exec_setUp hi.setUp h
  have hspec := channelSpec_pixel p s
  obtain ⟨-, rfl⟩ | ⟨hp, u, hu, rfl⟩ | ⟨hp, u, hu, rfl⟩ := exec_streamPixel_cases h
  · exact hi.of_same_registers rfl
  · have hcs := hi.streaming_iff_cs.1 hp
    have hpos := hi.streaming_iff_rem.1 hp
    have hle := hi.rem_le
    obtain ⟨hrst, -⟩ := hi.driven (by simp [hp])
    obtain rfl := (performs_pixel p).eq_of_sent hcs hu
    rcases Nat.lt_or_ge 1 s.rem.toNat with hmore | hlast
    · have hrem : (s.rem - 1).toNat = s.rem.toNat - 1 := by bv_omega
      rw [countPixel_more (s := afterSent false (pixelEvents p) s) hmore] at hset ⊢
      exact inv_of_streaming hset hp (by change 0 < (s.rem - 1).toNat; omega)
        (by change (s.rem - 1).toNat ≤ s.ew.toNat * s.eh.toNat; omega) rfl rfl hrst
    · rw [countPixel_last (s := afterSent false (pixelEvents p) s) (Nat.le_antisymm hlast hpos)] at hset ⊢
      exact inv_of_not_streaming hset (by simp) rfl (by simp)
        fun _ => ⟨hrst, by simp [afterSent, pixelEvents, dcAfter]⟩
  · exact hi.fail_of_failed (by simp [hp]) hspec hu hset

theorem exec_inv {i : Instr} {s t : State} (hi : Inv s) (h : exec i s = .next t) : Inv t := by
  cases i with
  | reset => exact exec_reset_inv hi h
  | setOrientation o => exact exec_setOrientation_inv hi h
  | setWindow x0 y0 x1 y1 => exact exec_setWindow_inv hi h
  | streamPixel p => exact exec_streamPixel_inv hi h
  | encode | decode | nearlyEqual | flagsFor | effectiveSize | getScreenSize | getStatus | getRemaining =>
    obtain ⟨v, rfl⟩ := exec_readsOnly rfl h
    exact hi.of_same_registers rfl

/-- Settles O36: a step does nothing, refuses, or executes one operation, and the invariants do not speak of the
request port. -/
theorem stepKeepsTheInvariants : Obligations.StepKeepsTheInvariants := by
  intro s t hi h
  obtain ⟨-, rfl⟩ | ⟨w, rest, r, -, -, rfl⟩ | ⟨w, rest, i, -, -, hexec⟩ := step_cases h
  · exact hi
  · exact hi.of_same_registers rfl
  · have haccepted : Inv { s with requests := rest } := hi.of_same_registers rfl
    exact exec_inv haccepted hexec

/-! ### Power-on -/

/-- Settles O34: every value of R23 is the one `State.powerOn` writes. -/
theorem powerOnValues : Obligations.PowerOnValues :=
  fun c pins chan => ⟨.powerOn c pins chan, rfl, rfl, rfl, rfl, rfl, rfl, rfl, rfl, rfl, rfl, rfl, rfl, rfl⟩

/-- At power-on the size is the native one, which is the effective size for normal-portrait (R23, R84). -/
theorem setUp_powerOn {c : Cfg} (hwf : c.wf = true) (pins chan : Oracle) : SetUp (.powerOn c pins chan) :=
  ⟨hwf, rfl⟩

/-- Settles O35: no stream is open at power-on, and the latches are only claimed outside UNINIT. -/
theorem invariantsHoldAtPowerOn : Obligations.InvariantsHoldAtPowerOn := by
  refine ⟨fun c pins chan hwf => ⟨?_, rfl⟩, rfl⟩
  exact inv_of_not_streaming (setUp_powerOn hwf pins chan) Phase.noConfusion rfl rfl fun hp => absurd rfl hp

end Sys2Proof.Machine
end

section
/-! PROOFS. What no operation reads (spec/10_state.md): the histories (R19) and the output latches (R17, R18, R23). -/

namespace Sys2Proof.Machine

/-! ### RESET as one transfer and its conclusion -/

/-- The end of a RESET whose init sequence went through (R91). -/
def finishReset (s : State) : State := succeed 0 { s with phase := .ready }

/-- RESET samples the pins and, where they pass, replays the init sequence from `resetStart` (R91, R99). -/
theorem exec_reset_eq (s : State) : exec .reset s = .next (if s.pinsOk then
    conclude .initializationError (runInit s.cfg.initSeq (resetStart s)) finishReset
    else fail .initializationError (samplePins s)) := rfl

/-- Where the init sequence starts, in closed form (R91). -/
theorem resetStart_eq (s : State) : resetStart s =
    { s with
      rem := 0
      csN := true
      rstN := some true
      trace := s.trace ++ (if s.csN = true then [] else [.cs true]) ++ pulseEvents
      pins := s.pins.skip 1 } := by
  simp [resetStart, resetPulse, pulseEvents, idle, driveRST, emit, samplePins, driveCS_eq]

/-! ### A state in disguise: other histories before its own, another level on the reset pin -/

/-- A change to the parts of the state that channel operations do not read: events and responses put before the
histories, and a change of the reset pin's latch (R18, R19). -/
structure Disguise where
  events    : List Event
  responses : List Response
  resetPin  : Option Bool → Option Bool

/-- The state with the change made. -/
def Disguise.wear (φ : Disguise) (s : State) : State :=
  { s with trace := φ.events ++ s.trace, rsps := φ.responses ++ s.rsps, rstN := φ.resetPin s.rstN }

section

variable (φ : Disguise)

@[simp] theorem wear_phase (s : State) : (φ.wear s).phase = s.phase := rfl
@[simp] theorem wear_ew (s : State) : (φ.wear s).ew = s.ew := rfl
@[simp] theorem wear_eh (s : State) : (φ.wear s).eh = s.eh := rfl
@[simp] theorem wear_cfg (s : State) : (φ.wear s).cfg = s.cfg := rfl
@[simp] theorem wear_dcLevel (s : State) : (φ.wear s).dcLevel = s.dcLevel := rfl
@[simp] theorem wear_pinsOk (s : State) : (φ.wear s).pinsOk = s.pinsOk := rfl
@[simp] theorem wear_chanAnswer (s : State) (k : Nat) : (φ.wear s).chanAnswer k = s.chanAnswer k := rfl
@[simp] theorem samplePins_wear (s : State) : samplePins (φ.wear s) = φ.wear (samplePins s) := rfl
@[simp] theorem drawChan_wear (s : State) : drawChan (φ.wear s) = φ.wear (drawChan s) := rfl
@[simp] theorem driveDC_wear (v : Bool) (s : State) : driveDC v (φ.wear s) = φ.wear (driveDC v s) := rfl

@[simp] theorem respond_wear (e : Err) (v : Word) (s : State) : respond e v (φ.wear s) = φ.wear (respond e v s) := by
  simp [Disguise.wear, respond]

@[simp] theorem succeed_wear (v : Word) (s : State) : succeed v (φ.wear s) = φ.wear (succeed v s) :=
  respond_wear φ .ok v s

@[simp] theorem fail_wear (e : Err) (s : State) : fail e (φ.wear s) = φ.wear (fail e s) := respond_wear φ e 0 s

@[simp] theorem emit_wear (es : List Event) (s : State) : emit es (φ.wear s) = φ.wear (emit es s) := by
  simp [Disguise.wear, emit]

@[simp] theorem idle_wear (n : WaitName) (s : State) : idle n (φ.wear s) = φ.wear (idle n s) :=
  emit_wear φ [.wait n] s

@[simp] theorem driveCS_wear (v : Bool) (s : State) : driveCS v (φ.wear s) = φ.wear (driveCS v s) := by
  simp [Disguise.wear, driveCS_eq]

@[simp] theorem transportFailure_wear (s : State) : transportFailure (φ.wear s) = φ.wear (transportFailure s) := by
  unfold transportFailure
  rw [driveCS_wear]
  rfl

@[simp] theorem countPixel_wear (s : State) : countPixel (φ.wear s) = φ.wear (countPixel s) := by
  unfold countPixel
  rw [driveCS_wear, apply_ite φ.wear]
  rfl

/-- The pulse writes the reset pin, so it passes only where the change leaves a driven level as it is (R18, R91). -/
theorem resetStart_wear (hpin : ∀ v, φ.resetPin (some v) = some v) (s : State) :
    resetStart (φ.wear s) = φ.wear (resetStart s) := by
  simp [resetStart_eq, Disguise.wear, hpin]

/-! ### Transfers -/

/-- The same outcome with its state changed. -/
def Transfer.map (f : State → State) : Transfer → Transfer
  | .sent s => .sent (f s)
  | .failed s => .failed (f s)

/-- Going on after a change goes on before it, where what follows lets the change pass. -/
theorem Transfer.map_andThen {f : State → State} {k : State → Transfer} (hk : ∀ s, k (f s) = (k s).map f)
    (r : Transfer) : (r.map f).andThen k = (r.andThen k).map f := by
  cases r with
  | sent s => exact hk s
  | failed s => rfl

theorem conclude_map {f : State → State} {e : Err} {k : State → State} (hfail : ∀ s, fail e (f s) = f (fail e s))
    (hk : ∀ s, k (f s) = f (k s)) (r : Transfer) : conclude e (r.map f) k = f (conclude e r k) := by
  cases r with
  | sent s => exact hk s
  | failed s => exact hfail s

theorem send_wear (b : Byte) (s : State) : send b (φ.wear s) = (send b s).map φ.wear := by
  unfold send
  rw [drawChan_wear, wear_chanAnswer, wear_dcLevel, emit_wear, emit_wear, transportFailure_wear,
    apply_ite (Transfer.map φ.wear)]
  rfl

theorem sendAll_wear (bs : List Byte) (s : State) : sendAll bs (φ.wear s) = (sendAll bs s).map φ.wear := by
  induction bs generalizing s with
  | nil => rfl
  | cons b bs ih =>
    rw [sendAll, send_wear, Transfer.map_andThen ih]
    rfl

theorem openCommand_wear (c : Byte) (s : State) : openCommand c (φ.wear s) = (openCommand c s).map φ.wear := by
  unfold openCommand
  rw [driveCS_wear]
  exact send_wear φ c (driveDC false (driveCS false s))

theorem sendPayload_wear (ds : List Byte) (s : State) :
    sendPayload ds (φ.wear s) = (sendPayload ds s).map φ.wear := by
  cases ds with
  | nil => rfl
  | cons d ds => exact sendAll_wear φ (d :: ds) (driveDC true s)

theorem command_wear (c : Byte) (ds : List Byte) (s : State) :
    command c ds (φ.wear s) = (command c ds s).map φ.wear := by
  unfold command
  rw [openCommand_wear, Transfer.map_andThen (sendPayload_wear φ ds), Transfer.map_andThen]
  exact fun t => congrArg Transfer.sent (driveCS_wear φ true t)

theorem runInit_wear (steps : List InitStep) (s : State) :
    runInit steps (φ.wear s) = (runInit steps s).map φ.wear := by
  induction steps generalizing s with
  | nil => rfl
  | cons st rest ih =>
    cases st with
    | cmd c ds =>
      rw [runInit, command_wear, Transfer.map_andThen ih]
      rfl
    | wait n =>
      rw [runInit, idle_wear, ih]
      rfl

theorem addressWindow_wear (x0 y0 x1 y1 : Slot) (s : State) :
    addressWindow x0 y0 x1 y1 (φ.wear s) = (addressWindow x0 y0 x1 y1 s).map φ.wear := by
  unfold addressWindow
  rw [wear_cfg, command_wear, Transfer.map_andThen (command_wear φ _ _), Transfer.map_andThen (openCommand_wear φ _)]

/-! ### Operations on a disguised state -/

theorem whenPhase_wear {p : Phase} {k : State → State} {s : State} (hk : k (φ.wear s) = φ.wear (k s)) :
    whenPhase p (φ.wear s) k = φ.wear (whenPhase p s k) := by
  unfold whenPhase
  rw [wear_phase, hk, fail_wear, apply_ite φ.wear]

theorem exec_reset_wear (hpin : ∀ v, φ.resetPin (some v) = some v) {s t : State} (h : exec .reset s = .next t) :
    exec .reset (φ.wear s) = .next (φ.wear t) := by
  obtain rfl := next_injective ((exec_reset_eq s).symm.trans h)
  have hdone : ∀ u, finishReset (φ.wear u) = φ.wear (finishReset u) :=
    fun u => succeed_wear φ 0 { u with phase := .ready }
  rw [exec_reset_eq, wear_pinsOk, wear_cfg, samplePins_wear, resetStart_wear φ hpin, runInit_wear,
    conclude_map (fail_wear φ _) hdone, fail_wear, apply_ite φ.wear]

theorem exec_setOrientation_wear {o : Orientation} {s t : State} (h : exec (.setOrientation o) s = .next t) :
    exec (.setOrientation o) (φ.wear s) = .next (φ.wear t) := by
  obtain rfl := next_injective h
  have hdone : ∀ u, succeed 0 (cacheGeometry o (φ.wear u)) = φ.wear (succeed 0 (cacheGeometry o u)) :=
    fun u => succeed_wear φ 0 (cacheGeometry o u)
  refine congrArg Host.Outcome.next (whenPhase_wear φ ?_)
  rw [wear_cfg, command_wear, conclude_map (fail_wear φ _) hdone]

theorem exec_setWindow_wear {x0 y0 x1 y1 : Slot} {s t : State} (h : exec (.setWindow x0 y0 x1 y1) s = .next t) :
    exec (.setWindow x0 y0 x1 y1) (φ.wear s) = .next (φ.wear t) := by
  obtain rfl := next_injective h
  have hdone : ∀ n u, succeed n (beginStream n (φ.wear u)) = φ.wear (succeed n (beginStream n u)) :=
    fun n u => succeed_wear φ n (beginStream n u)
  refine congrArg Host.Outcome.next (whenPhase_wear φ ?_)
  rw [wear_ew, wear_eh, addressWindow_wear, conclude_map (fail_wear φ _) (hdone _), fail_wear, apply_ite φ.wear]

theorem exec_streamPixel_wear {p : Slot} {s t : State} (h : exec (.streamPixel p) s = .next t) :
    exec (.streamPixel p) (φ.wear s) = .next (φ.wear t) := by
  obtain rfl := next_injective h
  have hdone : ∀ u, succeed (countPixel (φ.wear u)).rem (countPixel (φ.wear u)) =
      φ.wear (succeed (countPixel u).rem (countPixel u)) := fun u => by
    rw [countPixel_wear]
    exact succeed_wear φ _ (countPixel u)
  refine congrArg Host.Outcome.next (whenPhase_wear φ ?_)
  rw [driveDC_wear, sendAll_wear, conclude_map (fail_wear φ _) hdone]

/-- Every operation does the same on the disguised state; RESET does if its pulse does not undo the change. -/
theorem exec_wear {i : Instr} {s t : State} (hpin : i = .reset → ∀ v, φ.resetPin (some v) = some v)
    (h : exec i s = .next t) : exec i (φ.wear s) = .next (φ.wear t) := by
  cases i with
  | reset => exact exec_reset_wear φ (hpin rfl) h
  | setOrientation o => exact exec_setOrientation_wear φ h
  | setWindow x0 y0 x1 y1 => exact exec_setWindow_wear φ h
  | streamPixel p => exact exec_streamPixel_wear φ h
  | encode | decode | nearlyEqual | flagsFor | effectiveSize | getScreenSize | getStatus | getRemaining =>
    obtain rfl := next_injective h
    exact congrArg Host.Outcome.next (succeed_wear φ _ s)

end

/-- Settles O38: a state is its history-free copy with the histories put before the empty ones. -/
theorem historiesAreNotReadAndOnlyGrow : Obligations.HistoriesAreNotReadAndOnlyGrow := by
  intro i s
  obtain ⟨t, ht⟩ := exec_next i { s with trace := [], rsps := [] }
  have hs : s = (⟨s.trace, s.rsps, id⟩ : Disguise).wear { s with trace := [], rsps := [] } := by
    simp [Disguise.wear]
  refine ⟨t, ht, ?_⟩
  conv_lhs => rw [hs]
  exact exec_wear ⟨s.trace, s.rsps, id⟩ (fun _ _ => rfl) ht

/-! ### The output latches before an operation -/

/-- The state with another level on the reset pin. -/
def State.withRST (r : Option Bool) (s : State) : State := { s with rstN := r }

/-- The state with another level on the data/command select. -/
def State.withDC (d : Option Bool) (s : State) : State := { s with dc := d }

@[simp] theorem withDC_phase (d : Option Bool) (s : State) : (s.withDC d).phase = s.phase := rfl
@[simp] theorem withDC_ew (d : Option Bool) (s : State) : (s.withDC d).ew = s.ew := rfl
@[simp] theorem withDC_eh (d : Option Bool) (s : State) : (s.withDC d).eh = s.eh := rfl
@[simp] theorem withDC_cfg (d : Option Bool) (s : State) : (s.withDC d).cfg = s.cfg := rfl
@[simp] theorem withDC_pinsOk (d : Option Bool) (s : State) : (s.withDC d).pinsOk = s.pinsOk := rfl

/-- The pulse drives the pin before anything else could read it (R91). -/
theorem resetStart_withRST (r : Option Bool) (s : State) : resetStart (s.withRST r) = resetStart s := by
  simp [resetStart_eq, State.withRST]

theorem exec_reset_withRST {s t : State} (r : Option Bool) (h : exec .reset s = .next t) :
    exec .reset (s.withRST r) = .next (if s.pinsOk then t else t.withRST r) := by
  have hpins : (s.withRST r).pinsOk = s.pinsOk := rfl
  have hcfg : (s.withRST r).cfg = s.cfg := rfl
  obtain rfl := next_injective ((exec_reset_eq s).symm.trans h)
  rw [exec_reset_eq, hpins, hcfg, resetStart_withRST]
  cases s.pinsOk <;> rfl

/-- Another level on the reset pin passes through an operation, or RESET's pulse overwrites it (R18). -/
theorem exec_withRST {i : Instr} {s t : State} (r : Option Bool) (h : exec i s = .next t) :
    exec i (s.withRST r) = .next t ∨ exec i (s.withRST r) = .next (t.withRST r) := by
  by_cases hi : i = .reset
  · subst hi
    rw [exec_reset_withRST r h]
    cases s.pinsOk with
    | true => exact .inl rfl
    | false => exact .inr rfl
  · exact .inr (exec_wear ⟨[], [], fun _ => r⟩ (fun hr => absurd hr hi) h)

/-- Each transaction drives D/C before its first byte (R32). -/
theorem openCommand_withDC (c : Byte) (d : Option Bool) (s : State) : openCommand c (s.withDC d) = openCommand c s := by
  simp [openCommand, driveCS_eq, driveDC, State.withDC]

theorem command_withDC (c : Byte) (ds : List Byte) (d : Option Bool) (s : State) :
    command c ds (s.withDC d) = command c ds s := by
  unfold command
  rw [openCommand_withDC]

theorem addressWindow_withDC (x0 y0 x1 y1 : Slot) (d : Option Bool) (s : State) :
    addressWindow x0 y0 x1 y1 (s.withDC d) = addressWindow x0 y0 x1 y1 s := by
  unfold addressWindow
  rw [withDC_cfg, command_withDC]

/-- An init sequence overwrites D/C with its first command, or has no command and lets it pass (R91). -/
theorem runInit_withDC (steps : List InitStep) (d : Option Bool) (s : State) :
    runInit steps (s.withDC d) = runInit steps s ∨
    runInit steps (s.withDC d) = (runInit steps s).map (State.withDC d) := by
  induction steps generalizing s with
  | nil => exact .inr rfl
  | cons st rest ih =>
    cases st with
    | cmd c ds => exact .inl (by rw [runInit, command_withDC, ← runInit])
    | wait n => exact ih (idle n s)

theorem exec_reset_withDC {s t : State} (d : Option Bool) (h : exec .reset s = .next t) :
    exec .reset (s.withDC d) = .next t ∨ exec .reset (s.withDC d) = .next (t.withDC d) := by
  have hstart : resetStart (s.withDC d) = (resetStart s).withDC d := by
    simp [resetStart_eq, State.withDC]
  obtain rfl := next_injective ((exec_reset_eq s).symm.trans h)
  rw [exec_reset_eq, withDC_pinsOk, withDC_cfg, hstart]
  cases s.pinsOk with
  | false => exact .inr rfl
  | true =>
    obtain heq | hmap := runInit_withDC s.cfg.initSeq d (resetStart s)
    · rw [heq]
      exact .inl rfl
    · have hend := conclude_map (f := State.withDC d) (e := .initializationError) (k := finishReset)
        (fun _ => rfl) (fun _ => rfl) (runInit s.cfg.initSeq (resetStart s))
      rw [hmap]
      exact .inr (congrArg Host.Outcome.next hend)

/-- An admitted operation overwrites D/C, and a refused one lets it pass. -/
theorem next_whenPhase_withDC {p : Phase} {k : State → State} {s : State} {d : Option Bool}
    (hk : k (s.withDC d) = k s ∨ k (s.withDC d) = (k s).withDC d) :
    (Host.Outcome.next (whenPhase p (s.withDC d) k) : Host.Outcome State Fault Refusal) = .next (whenPhase p s k) ∨
    (Host.Outcome.next (whenPhase p (s.withDC d) k) : Host.Outcome State Fault Refusal) =
      .next ((whenPhase p s k).withDC d) := by
  by_cases hp : s.phase = p
  · rw [whenPhase_admitted hp, whenPhase_admitted ((withDC_phase d s).trans hp)]
    exact hk.imp (congrArg _) (congrArg _)
  · rw [whenPhase_refused hp, whenPhase_refused (hp ∘ (withDC_phase d s).symm.trans)]
    exact .inr rfl

theorem exec_setOrientation_withDC {o : Orientation} {s t : State} (d : Option Bool)
    (h : exec (.setOrientation o) s = .next t) :
    exec (.setOrientation o) (s.withDC d) = .next t ∨ exec (.setOrientation o) (s.withDC d) = .next (t.withDC d) := by
  obtain rfl := next_injective h
  exact next_whenPhase_withDC (.inl (by rw [withDC_cfg, command_withDC]))

theorem exec_setWindow_withDC {x0 y0 x1 y1 : Slot} {s t : State} (d : Option Bool)
    (h : exec (.setWindow x0 y0 x1 y1) s = .next t) :
    exec (.setWindow x0 y0 x1 y1) (s.withDC d) = .next t ∨
    exec (.setWindow x0 y0 x1 y1) (s.withDC d) = .next (t.withDC d) := by
  obtain rfl := next_injective h
  refine next_whenPhase_withDC ?_
  rw [withDC_ew, withDC_eh, addressWindow_withDC]
  cases insideScreen s.ew s.eh x0 y0 x1 y1 with
  | true => exact .inl rfl
  | false => exact .inr rfl

/-- Another level on the data/command select passes through an operation, or the operation overwrites it (R17). -/
theorem exec_withDC {i : Instr} {s t : State} (d : Option Bool) (h : exec i s = .next t) :
    exec i (s.withDC d) = .next t ∨ exec i (s.withDC d) = .next (t.withDC d) := by
  cases i with
  | reset => exact exec_reset_withDC d h
  | setOrientation o => exact exec_setOrientation_withDC d h
  | setWindow x0 y0 x1 y1 => exact exec_setWindow_withDC d h
  | streamPixel p =>
    obtain rfl := next_injective h
    exact next_whenPhase_withDC (.inl rfl)
  | encode | decode | nearlyEqual | flagsFor | effectiveSize | getScreenSize | getStatus | getRemaining =>
    obtain rfl := next_injective h
    exact .inr rfl

/-- Settles O39: `DC` and `RST_N`, one after the other, pass through the operation or are overwritten by it, so the two
results differ in them alone. -/
theorem outputLatchesAreNotRead : Obligations.OutputLatchesAreNotRead := by
  intro i s d r
  obtain ⟨t, ht⟩ := exec_next i s
  obtain h | h := exec_withDC d ht
  · obtain h' | h' := exec_withRST r h
    · exact ⟨t, _, ht, h', rfl⟩
    · exact ⟨t, _, ht, h', rfl⟩
  · obtain h' | h' := exec_withRST r h
    · exact ⟨t, _, ht, h', rfl⟩
    · exact ⟨t, _, ht, h', rfl⟩

end Sys2Proof.Machine
end

section
/-! PROOFS. The wire framing (spec/20_memory.md, R46): events that fit the framing, whole or cut at a failed byte, and
every step keeps it. -/

namespace Sys2Proof.Machine

/-! ### Event lists that fit the framing -/

/-- Where a framed trace stands while chip select is at a level (R16, R46). -/
def frameAt (csN : Bool) : Frame := if csN then .idle else .body

/-- The events lead from a framed trace with chip select at `a` to one with chip select at `b`. -/
def FramedEvents (a b : Bool) (es : List Event) : Prop := es.foldl Frame.next (frameAt a) = frameAt b

theorem framed_iff (s : State) : Framed s ↔ frameOf s.trace = frameAt s.csN := Iff.rfl

theorem frameAt_ne_bad (a : Bool) : frameAt a ≠ .bad := by cases a <;> decide

theorem frameOf_append (a b : List Event) : frameOf (a ++ b) = b.foldl Frame.next (frameOf a) :=
  List.foldl_append ..

/-- A violation is never mended. -/
theorem foldl_next_bad (es : List Event) : es.foldl Frame.next .bad = .bad := by
  induction es with
  | nil => rfl
  | cons e es ih => exact ih

theorem FramedEvents.append {a b c : Bool} {es fs : List Event} (he : FramedEvents a b es)
    (hf : FramedEvents b c fs) : FramedEvents a c (es ++ fs) := by
  unfold FramedEvents at *
  rw [List.foldl_append, he, hf]

theorem framedEvents_nil (a : Bool) : FramedEvents a a [] := rfl

theorem framedEvents_opening (c : Byte) : FramedEvents true false [.cs false, .tx false c] := rfl

theorem framedEvents_release : FramedEvents false true [.cs true] := rfl

theorem framedEvents_pulse : FramedEvents true true pulseEvents := rfl

theorem framedEvents_data (ds : List Byte) : FramedEvents false false (ds.map (.tx true)) := by
  induction ds with
  | nil => rfl
  | cons d ds ih => exact ih

theorem framedEvents_command (c : Byte) (ds : List Byte) : FramedEvents true true (commandEvents c ds) :=
  ((framedEvents_opening c).append (framedEvents_data ds)).append framedEvents_release

theorem framedEvents_init (steps : List InitStep) : FramedEvents true true (initEvents steps) := by
  induction steps with
  | nil => rfl
  | cons st rest ih =>
    cases st with
    | cmd c ds => exact (framedEvents_command c ds).append ih
    | wait n => exact ih

theorem framedEvents_window (cfg : Cfg) (x0 y0 x1 y1 : Slot) :
    FramedEvents true false (windowEvents cfg x0 y0 x1 y1) :=
  ((framedEvents_command _ _).append (framedEvents_command _ _)).append (framedEvents_opening _)

theorem framedEvents_pixel (p : Slot) : FramedEvents false false (pixelEvents p) :=
  framedEvents_data [p.lowByte, p.highByte]

/-- A byte that may be sent may also fail, and the release after it ends the transaction (R99). -/
theorem next_release_of_failed_byte {f : Frame} {v : Bool} {b : Byte} (h : f.next (.tx v b) ≠ .bad) :
    (f.next (.txFail v b)).next (.cs true) = .idle := by
  cases f with
  | opened =>
    cases v with
    | false => rfl
    | true => exact absurd rfl h
  | body =>
    cases v with
    | false => exact absurd rfl h
    | true => rfl
  | idle | broken | bad => exact absurd rfl h

/-- Events that keep the framing keep it where they are cut at a failed byte, and end with chip select released (R99). -/
theorem foldl_next_cutAt {es : List Event} {j : Nat} {f : Frame} (hj : j < byteCount es)
    (h : es.foldl Frame.next f ≠ .bad) : (cutAt j es).foldl Frame.next f = .idle := by
  induction es generalizing j f with
  | nil => simp at hj
  | cons e es ih =>
    cases e with
    | tx v b =>
      cases j with
      | zero =>
        refine next_release_of_failed_byte (v := v) (b := b) fun hbad => h ?_
        rw [List.foldl_cons, hbad, foldl_next_bad]
      | succ j => exact ih (by simpa [Event.isTx] using hj) h
    | rst v => exact ih (by simpa [Event.isTx] using hj) h
    | cs v => exact ih (by simpa [Event.isTx] using hj) h
    | wait n => exact ih (by simpa [Event.isTx] using hj) h
    | txFail v b => exact ih (by simpa [Event.isTx] using hj) h

theorem FramedEvents.cutAt {a b : Bool} {es : List Event} (h : FramedEvents a b es) {j : Nat}
    (hj : j < byteCount es) : FramedEvents a true (cutAt j es) :=
  foldl_next_cutAt hj (by rw [h]; exact frameAt_ne_bad b)

/-! ### State updates that keep the framing -/

/-- The framing speaks of the trace and of chip select only. -/
theorem Framed.of_same {s t : State} (hs : Framed s) (htrace : t.trace = s.trace) (hcs : t.csN = s.csN) :
    Framed t := by
  rw [framed_iff] at *
  rw [htrace, hcs, hs]

theorem Framed.of_events {s t : State} {a b : Bool} {es : List Event} (hs : Framed s) (ha : s.csN = a)
    (hes : FramedEvents a b es) (htrace : t.trace = s.trace ++ es) (hb : t.csN = b) : Framed t := by
  rw [framed_iff] at *
  rw [htrace, frameOf_append, hs, ha, hes, hb]

/-- A channel operation whose events fit the framing keeps it where every byte goes out (R32, R46). -/
theorem Framed.of_sent {f : State → Transfer} {a b : Bool} {es : List Event} {s u : State} (hs : Framed s)
    (ha : s.csN = a) (hf : Performs f a b es) (hes : FramedEvents a b es) (hu : f s = .sent u) : Framed u := by
  obtain rfl := hf.eq_of_sent ha hu
  exact hs.of_events ha hes rfl rfl

/-- It keeps it where a byte fails, by the release of chip select (R99). -/
theorem Framed.of_failed {f : State → Transfer} {a b : Bool} {es : List Event} {s u : State} (hs : Framed s)
    (ha : s.csN = a) (hf : Performs f a b es) (hes : FramedEvents a b es) (hu : f s = .failed u) : Framed u := by
  obtain ⟨j, hj, rfl⟩ := hf.eq_of_failed ha hu
  exact hs.of_events ha (hes.cutAt hj) rfl rfl

/-- Releasing chip select ends an open transaction and changes nothing else of the framing (R16). -/
theorem Framed.driveCS_true {s : State} (hs : Framed s) : Framed (driveCS true s) := by
  cases hcs : s.csN with
  | false => exact hs.of_events hcs framedEvents_release (by simp [hcs]) (by simp)
  | true => exact hs.of_events hcs (framedEvents_nil true) (by simp [hcs]) (by simp)

theorem Framed.resetPulse {s : State} (hs : Framed s) (hcs : s.csN = true) : Framed (resetPulse s) :=
  hs.of_events hcs framedEvents_pulse (by simp [Machine.resetPulse, pulseEvents]) (by simp [Machine.resetPulse, hcs])

/-- RESET closes an open transaction before it pulses the pin (R91). -/
theorem Framed.resetStart {s : State} (hs : Framed s) : Framed (resetStart s) := by
  have hsampled : Framed (samplePins s) := hs.of_same rfl rfl
  have hcleared : Framed { driveCS true (samplePins s) with rem := 0 } := hsampled.driveCS_true.of_same rfl rfl
  exact hcleared.resetPulse (by simp)

/-- The last pixel closes the transaction, any other leaves it open (R95). -/
theorem Framed.countPixel {s : State} (hs : Framed s) : Framed (countPixel s) := by
  unfold Machine.countPixel
  split
  · exact hs.driveCS_true.of_same rfl rfl
  · exact hs.of_same rfl rfl

/-! ### Every operation keeps the framing -/

theorem exec_reset_framed {s t : State} (hs : Framed s) (h : exec .reset s = .next t) : Framed t := by
  have hperf := performs_runInit s.cfg.initSeq
  have hevents := framedEvents_init s.cfg.initSeq
  have hcs : (resetStart s).csN = true := by simp [resetStart_only]
  obtain ⟨-, rfl⟩ | ⟨-, u, hu, rfl⟩ | ⟨-, u, hu, rfl⟩ := exec_reset_cases h
  · exact hs.of_same rfl rfl
  · exact (hs.resetStart.of_sent hcs hperf hevents hu).of_same rfl rfl
  · exact (hs.resetStart.of_failed hcs hperf hevents hu).of_same rfl rfl

theorem exec_setOrientation_framed {o : Orientation} {s t : State} (hi : Inv s) (hs : Framed s)
    (h : exec (.setOrientation o) s = .next t) : Framed t := by
  have hperf := performs_command s.cfg.cmdMemoryAccessControl [flagsOf s.cfg.flagsTable o]
  have hevents := framedEvents_command s.cfg.cmdMemoryAccessControl [flagsOf s.cfg.flagsTable o]
  obtain ⟨-, rfl⟩ | ⟨hp, u, hu, rfl⟩ | ⟨hp, u, hu, rfl⟩ := exec_setOrientation_cases h
  · exact hs.of_same rfl rfl
  · exact (hs.of_sent (hi.csN_eq_true (by simp [hp])) hperf hevents hu).of_same rfl rfl
  · exact (hs.of_failed (hi.csN_eq_true (by simp [hp])) hperf hevents hu).of_same rfl rfl

theorem exec_setWindow_framed {x0 y0 x1 y1 : Slot} {s t : State} (hi : Inv s) (hs : Framed s)
    (h : exec (.setWindow x0 y0 x1 y1) s = .next t) : Framed t := by
  have hperf := performs_addressWindow s.cfg x0 y0 x1 y1
  have hevents := framedEvents_window s.cfg x0 y0 x1 y1
  obtain ⟨-, rfl⟩ | ⟨-, -, rfl⟩ | ⟨hp, -, u, hu, rfl⟩ | ⟨hp, -, u, hu, rfl⟩ := exec_setWindow_cases h
  · exact hs.of_same rfl rfl
  · exact hs.of_same rfl rfl
  · exact (hs.of_sent (hi.csN_eq_true (by simp [hp])) hperf hevents hu).of_same rfl rfl
  · exact (hs.of_failed (hi.csN_eq_true (by simp [hp])) hperf hevents hu).of_same rfl rfl

theorem exec_streamPixel_framed {p : Slot} {s t : State} (hi : Inv s) (hs : Framed s)
    (h : exec (.streamPixel p) s = .next t) : Framed t := by
  have hperf := performs_pixel p
  have hevents := framedEvents_pixel p
  obtain ⟨-, rfl⟩ | ⟨hp, u, hu, rfl⟩ | ⟨hp, u, hu, rfl⟩ := exec_streamPixel_cases h
  · exact hs.of_same rfl rfl
  · exact (hs.of_sent (hi.streaming_iff_cs.1 hp) hperf hevents hu).countPixel.of_same rfl rfl
  · exact (hs.of_failed (hi.streaming_iff_cs.1 hp) hperf hevents hu).of_same rfl rfl

theorem exec_framed {i : Instr} {s t : State} (hi : Inv s) (hs : Framed s) (h : exec i s = .next t) : Framed t := by
  cases i with
  | reset => exact exec_reset_framed hs h
  | setOrientation o => exact exec_setOrientation_framed hi hs h
  | setWindow x0 y0 x1 y1 => exact exec_setWindow_framed hi hs h
  | streamPixel p => exact exec_streamPixel_framed hi hs h
  | encode | decode | nearlyEqual | flagsFor | effectiveSize | getScreenSize | getStatus | getRemaining =>
    obtain ⟨v, rfl⟩ := exec_readsOnly rfl h
    exact hs.of_same rfl rfl

/-- Settles O37: the events of every operation fit the framing from the level the invariants give chip select, and keep
it where a failed byte cuts them. -/
theorem stepKeepsTheFraming : Obligations.StepKeepsTheFraming := by
  intro s t hi hs h
  obtain ⟨-, rfl⟩ | ⟨w, rest, r, -, -, rfl⟩ | ⟨w, rest, i, -, -, hexec⟩ := step_cases h
  · exact hs
  · exact hs.of_same rfl rfl
  · have hinv : Inv { s with requests := rest } := hi.of_same_registers rfl
    have hframed : Framed { s with requests := rest } := hs.of_same rfl rfl
    exact exec_framed hinv hframed hexec

end Sys2Proof.Machine
end

section
/-! PROOFS. The bytes on the wire (spec/20_memory.md, R33, R34, R61), and what the operations make of the abstract panel
(R36 to R38): a configuration's command bytes differ, so each transaction has the one effect of its command. -/

namespace Sys2Proof.Machine

/-! ### Byte order -/

/-- Settles O46: the natural value is the packed value with its bytes swapped, so its high byte is the packed low one. -/
theorem wireByteOrder : Obligations.WireByteOrder := by
  refine ⟨fun lo hi => rfl, fun p => ⟨?_, rfl⟩⟩
  have hhigh : (swap16 p).highByte = p.lowByte := Slot.highByte_append _ _
  have hlow : (swap16 p).lowByte = p.highByte := Slot.lowByte_append _ _
  calc pixelBytes p = [(swap16 p).highByte, (swap16 p).lowByte] := by rw [hhigh, hlow, pixelBytes]
    _ = _ := rfl

/-! ### The panel along a trace -/

theorem panelOf_congr {s t : State} (htrace : t.trace = s.trace) (hcfg : t.cfg = s.cfg) : panelOf t = panelOf s := by
  rw [panelOf, panelOf, htrace, hcfg]

/-- The panel after further events. -/
theorem panelOf_of_events {s t : State} {es : List Event} (htrace : t.trace = s.trace ++ es) (hcfg : t.cfg = s.cfg) :
    panelOf t = es.foldl (Panel.observe s.cfg) (panelOf s) := by
  rw [panelOf, htrace, hcfg, List.foldl_append, panelOf]

@[simp] theorem panelOf_succeed (v : Word) (s : State) : panelOf (succeed v s) = panelOf s := rfl
@[simp] theorem panelOf_beginStream (n : Word) (s : State) : panelOf (beginStream n s) = panelOf s := rfl
@[simp] theorem panelOf_cacheGeometry (o : Orientation) (s : State) : panelOf (cacheGeometry o s) = panelOf s := rfl

theorem panelOf_afterSent (b : Bool) (es : List Event) (s : State) :
    panelOf (afterSent b es s) = es.foldl (Panel.observe s.cfg) (panelOf s) := panelOf_of_events rfl rfl

/-! ### A failed byte -/

/-- A failed byte makes all unknown, and the release of chip select after it leaves it so (R38, R99). -/
theorem panelOf_of_failed {s u : State} {r : Transfer} (hspec : ChannelSpec s r) (hr : r = .failed u) (e : Err) :
    panelOf (fail e u) = .unknown := by
  obtain ⟨es, d, b, htrace | htrace⟩ := hspec.failed_trace u hr <;>
  · rw [panelOf, fail_trace, htrace, List.foldl_append]
    rfl

/-- Settles O50: of the outcomes of an operation only those of a failed byte report such an error. -/
theorem panelIsUnknownAfterAFailure : Obligations.PanelIsUnknownAfterAFailure := by
  intro i s t h herr
  cases i with
  | reset =>
    obtain ⟨hpins, rfl⟩ | ⟨-, u, hu, rfl⟩ | ⟨-, u, hu, rfl⟩ := exec_reset_cases h
    · simp [hpins] at herr
    · simp at herr
    · exact panelOf_of_failed (channelSpec_runInit _ _) hu _
  | setOrientation o =>
    obtain ⟨-, rfl⟩ | ⟨-, u, hu, rfl⟩ | ⟨-, u, hu, rfl⟩ := exec_setOrientation_cases h
    · simp at herr
    · simp at herr
    · exact panelOf_of_failed (channelSpec_command _ _ s) hu _
  | setWindow x0 y0 x1 y1 =>
    obtain ⟨-, rfl⟩ | ⟨-, -, rfl⟩ | ⟨-, -, u, hu, rfl⟩ | ⟨-, -, u, hu, rfl⟩ := exec_setWindow_cases h
    · simp at herr
    · simp at herr
    · simp at herr
    · exact panelOf_of_failed (channelSpec_addressWindow x0 y0 x1 y1 s) hu _
  | streamPixel p =>
    obtain ⟨-, rfl⟩ | ⟨-, u, hu, rfl⟩ | ⟨-, u, hu, rfl⟩ := exec_streamPixel_cases h
    · simp at herr
    · simp at herr
    · exact panelOf_of_failed (channelSpec_pixel p s) hu _
  | encode | decode | nearlyEqual | flagsFor | effectiveSize | getScreenSize | getStatus | getRemaining =>
    obtain ⟨v, rfl⟩ := exec_readsOnly rfl h
    simp at herr

/-! ### One transaction -/

/-- The command bytes the panel tells apart (R36). -/
structure PanelCommandsDiffer (c : Cfg) : Prop where
  column_ne_flags : c.cmdColumnAddressSet ≠ c.cmdMemoryAccessControl
  row_ne_flags : c.cmdRowAddressSet ≠ c.cmdMemoryAccessControl
  row_ne_column : c.cmdRowAddressSet ≠ c.cmdColumnAddressSet
  write_ne_flags : c.cmdMemoryWrite ≠ c.cmdMemoryAccessControl
  write_ne_column : c.cmdMemoryWrite ≠ c.cmdColumnAddressSet
  write_ne_row : c.cmdMemoryWrite ≠ c.cmdRowAddressSet

/-- A well-formed configuration's command bytes differ pairwise (R6, R59). -/
theorem Inv.panelCommandsDiffer {s : State} (hi : Inv s) : PanelCommandsDiffer s.cfg := by
  obtain ⟨-, -, hnodup, -⟩ := (Cfg.wf_iff s.cfg).1 hi.cfg_wf
  simp only [Cfg.commandBytes, List.nodup_cons, List.mem_cons, not_or] at hnodup
  obtain ⟨-, -, -, ⟨hmc, hmr, hmw, -⟩, ⟨hcr, hcw, -⟩, ⟨hrw, -⟩, -⟩ := hnodup
  exact ⟨Ne.symm hmc, Ne.symm hmr, Ne.symm hcr, Ne.symm hmw, Ne.symm hcw, Ne.symm hrw⟩

section
variable {cfg : Cfg} {p : Panel}

/-- The data bytes of a command other than memory-write are collected (R36). -/
theorem observe_data {c : Byte} (hc : c ≠ cfg.cmdMemoryWrite) (ds es : List Byte) :
    (es.map (Event.tx true)).foldl (Panel.observe cfg) { p with rx := some (c, ds) } =
      { p with rx := some (c, ds ++ es) } := by
  induction es generalizing ds with
  | nil => simp
  | cons e es ih => simpa [Panel.observe, Panel.data, hc] using ih (ds ++ [e])

/-- A whole transaction of a command other than memory-write has its effect at the release of chip select, where no
pixel is owed (R36). -/
theorem observe_command {c : Byte} (hc : c ≠ cfg.cmdMemoryWrite) (hmid : p.midStream = false) (ds : List Byte) :
    (commandEvents c ds).foldl (Panel.observe cfg) p = Panel.close cfg { p with rx := some (c, ds) } := by
  have hopened : ({ p with rx := none } : Panel).midStream = false := hmid
  have hopening : [Event.cs false, .tx false c].foldl (Panel.observe cfg) p = { p with rx := some (c, []) } := by
    simp [Panel.observe, Panel.command, hc, hopened]
  rw [commandEvents, List.foldl_append, List.foldl_append, hopening, observe_data hc]
  rfl

/-- Memory-write selects the window and starts the count (R36). -/
theorem observe_openMemoryWrite :
    [Event.cs false, .tx false cfg.cmdMemoryWrite].foldl (Panel.observe cfg) p =
      { p with win := p.selected, k := some 0, rx := some (cfg.cmdMemoryWrite, []) } := by
  simp [Panel.observe, Panel.command, Panel.selected]

theorem close_flags (f : Byte) :
    Panel.close cfg { p with rx := some (cfg.cmdMemoryAccessControl, [f]) } = { Panel.unknown with flags := some f } := by
  simp [Panel.close]

theorem close_columns (hne : PanelCommandsDiffer cfg) (x0 x1 : Slot) :
    Panel.close cfg { p with rx := some (cfg.cmdColumnAddressSet, boundsPayload x0 x1) } =
      { p with cols := some (x0, x1), rx := none } := by
  simp [Panel.close, hne.column_ne_flags, boundsPayload]

theorem close_rows (hne : PanelCommandsDiffer cfg) (y0 y1 : Slot) :
    Panel.close cfg { p with rx := some (cfg.cmdRowAddressSet, boundsPayload y0 y1) } =
      { p with rows := some (y0, y1), rx := none } := by
  simp [Panel.close, hne.row_ne_flags, hne.row_ne_column, boundsPayload]

/-- A memory-write transaction that ends between two pixels changes nothing else (R37). -/
theorem close_memoryWrite (hne : PanelCommandsDiffer cfg) (hrx : p.rx = some (cfg.cmdMemoryWrite, [])) :
    Panel.close cfg p = { p with rx := none } := by
  simp [Panel.close, hrx, hne.write_ne_flags, hne.write_ne_column, hne.write_ne_row]

/-- The sixteen events of SET_WINDOW, for bounds in order (R36, R94). -/
theorem observe_windowEvents (hne : PanelCommandsDiffer cfg) (hmid : p.midStream = false) {x0 y0 x1 y1 : Slot}
    (hx : x0 ≤ x1) (hy : y0 ≤ y1) :
    (windowEvents cfg x0 y0 x1 y1).foldl (Panel.observe cfg) p = { p with
      cols := some (x0, x1), rows := some (y0, y1), win := some ⟨x0, y0, x1, y1⟩, k := some 0
      rx := some (cfg.cmdMemoryWrite, []) } := by
  have hmid' : ({ p with cols := some (x0, x1), rx := none } : Panel).midStream = false := hmid
  rw [windowEvents, List.foldl_append, List.foldl_append, observe_command hne.write_ne_column.symm hmid,
    close_columns hne, observe_command hne.write_ne_row.symm hmid', close_rows hne, observe_openMemoryWrite]
  simp [Panel.selected, hx, hy]

/-- The bounds of a window inside the screen are in order (R94). -/
theorem bounds_ordered_of_insideScreen {ew eh x0 y0 x1 y1 : Slot} (h : insideScreen ew eh x0 y0 x1 y1 = true) :
    x0 ≤ x1 ∧ y0 ≤ y1 := by
  simp only [insideScreen, Bool.and_eq_true, decide_eq_true_eq] at h
  obtain ⟨⟨⟨hx, -⟩, hy⟩, -⟩ := h
  exact ⟨hx, hy⟩

/-- A pixel's two bytes place its natural value at the next raster position (R37). -/
theorem observe_pixelEvents {w : Window} {n : Nat} (hwin : p.win = some w) (hk : p.k = some n) (hn : n < w.count)
    (hrx : p.rx = some (cfg.cmdMemoryWrite, [])) (v : Slot) :
    (pixelEvents v).foldl (Panel.observe cfg) p = { p with
      mem := ((w.x0.toNat + n % w.width, w.y0.toNat + n / w.width), swap16 v) :: p.mem, k := some (n + 1) } := by
  simp [pixelEvents, Panel.observe, Panel.data, Panel.place, hrx, hwin, hk, hn, swap16]

end

/-! ### The operations on the panel -/

/-- Settles O48: the sixteen events select the bounds, which the screen test found in order. -/
theorem setWindowPrimesThePanel : Obligations.SetWindowPrimesThePanel := by
  intro x0 y0 x1 y1 s t hi hphase hmid h hok
  have hcs := hi.csN_eq_true (by simp [hphase])
  obtain ⟨-, rfl⟩ | ⟨-, -, rfl⟩ | ⟨-, hin, u, hu, rfl⟩ | ⟨-, -, u, hu, rfl⟩ := exec_setWindow_cases h
  · simp at hok
  · simp at hok
  · obtain rfl := (performs_addressWindow s.cfg x0 y0 x1 y1).eq_of_sent hcs hu
    obtain ⟨hx, hy⟩ := bounds_ordered_of_insideScreen hin
    rw [panelOf_succeed, panelOf_beginStream, panelOf_afterSent]
    exact observe_windowEvents hi.panelCommandsDiffer hmid hx hy
  · simp at hok

/-- Counting a pixel changes of the panel at most the open transaction (R95). -/
theorem panelOf_countPixel {s : State} (hne : PanelCommandsDiffer s.cfg)
    (hrx : (panelOf s).rx = some (s.cfg.cmdMemoryWrite, [])) :
    ∃ rx, panelOf (countPixel s) = { panelOf s with rx := rx } := by
  unfold countPixel
  split
  · cases hcs : s.csN with
    | true => exact ⟨_, panelOf_congr (by simp [hcs]) (by simp)⟩
    | false =>
      refine ⟨none, ?_⟩
      rw [panelOf_of_events (s := s) (es := [.cs true]) (by simp [hcs]) (by simp)]
      exact close_memoryWrite hne hrx
  · exact ⟨_, panelOf_congr rfl rfl⟩

/-- Placing a pixel makes it known at its coordinate and leaves every other (R37). -/
theorem pixel_of_mem_cons {p q : Panel} {a b : Nat} {v : Slot} (hmem : q.mem = ((a, b), v) :: p.mem) (x y : Nat) :
    q.pixel x y = if x = a ∧ y = b then some v else p.pixel x y := by
  rw [Panel.pixel, hmem, List.lookup_cons]
  by_cases hxy : x = a ∧ y = b
  · obtain ⟨rfl, rfl⟩ := hxy
    simp
  · have hne : ((x, y) == (a, b)) = false := by simpa using hxy
    simp [hne, hxy, Panel.pixel]

/-- Settles O49: the pixel's two bytes place it, and closing the transaction after the last one leaves pixels and count. -/
theorem streamPixelLandsInRasterOrder : Obligations.StreamPixelLandsInRasterOrder := by
  intro p s t w n hi hwin hk hn hrx h hok
  obtain ⟨-, rfl⟩ | ⟨hphase, u, hu, rfl⟩ | ⟨-, u, hu, rfl⟩ := exec_streamPixel_cases h
  · simp at hok
  · obtain rfl := (performs_pixel p).eq_of_sent (hi.streaming_iff_cs.1 hphase) hu
    have hplaced := (panelOf_afterSent false (pixelEvents p) s).trans
      (observe_pixelEvents hwin hk hn hrx p)
    obtain ⟨rx, hpanel⟩ := panelOf_countPixel (s := afterSent false (pixelEvents p) s) hi.panelCommandsDiffer
      (by rw [hplaced]; exact hrx)
    rw [panelOf_succeed, hpanel, hplaced]
    exact ⟨rfl, pixel_of_mem_cons rfl⟩
  · simp at hok

/-- Settles O58: one transaction of memory-access-control leaves only the flags it carries. -/
theorem setOrientationSetsThePanelsFlags : Obligations.SetOrientationSetsThePanelsFlags := by
  intro o s t hi hmid h hok
  obtain ⟨-, rfl⟩ | ⟨hphase, u, hu, rfl⟩ | ⟨-, u, hu, rfl⟩ := exec_setOrientation_cases h
  · simp at hok
  · have hcs := hi.csN_eq_true (by simp [hphase])
    obtain rfl := (performs_command _ _).eq_of_sent hcs hu
    have hpanel := (panelOf_afterSent true _ s).trans
      (observe_command hi.panelCommandsDiffer.write_ne_flags.symm hmid [flagsOf s.cfg.flagsTable o])
    rw [panelOf_succeed, panelOf_cacheGeometry, hpanel, close_flags]
    exact ⟨rfl, rfl, rfl, fun _ _ => rfl⟩
  · simp at hok

end Sys2Proof.Machine
end

section
/-! PROOFS. The encoding chapter (spec/30_encoding.md): decoder and encoder (R50 to R55), the match/mask table (R54), the
illegal word (R55, R125), and the error codes with the response word (R52, R57). -/

namespace Sys2Proof

/-! ### Decoder and encoder -/

/-- A word decodes where its fields spell an operation and that operation's must-be-zero bits are clear (R53 to R55). -/
theorem decode_eq_ok_iff {w : ReqWord} {i : Instr} :
    decode w = .ok i ↔ (Request.ofWord w).operation = some i ∧ (Request.ofWord w).reservedClear i = true := by
  cases h : (Request.ofWord w).operation with
  | none => simp [decode, h]
  | some j =>
    simp only [decode, h]
    split <;> grind

/-- The fields of an operation's request spell the operation (R53). -/
theorem operation_request (i : Instr) : i.request.operation = some i := by
  cases i <;> simp [Instr.request, Request.operation]

/-- The slot bits that an operation does not use are zero in its request (R54). -/
theorem reservedClear_request (i : Instr) : i.request.reservedClear i = true := by
  cases i <;> simp [Instr.request, Request.reservedClear]

/-- Settles O2: the fields of an operation's request are those the decoder reads, whatever the operands. -/
theorem decodeOfEncodeIsTheOperation : Obligations.DecodeOfEncodeIsTheOperation := by
  intro i
  rw [decode_eq_ok_iff, encode, Request.ofWord_toWord]
  exact ⟨operation_request i, reservedClear_request i⟩

/-- Fields that spell an operation and keep its must-be-zero bits are its request: for each opcode, every slot is an
operand, an operand with zeros above it, or zero (R53, R54). -/
theorem request_eq_of_legal {q : Request} {i : Instr} (hi : q.operation = some i)
    (hc : q.reservedClear i = true) : i.request = q := by
  obtain ⟨op, A, B, C, D⟩ := q
  unfold Request.operation at hi
  split at hi <;> cases hi <;>
    simp_all [Instr.request, Request.reservedClear, byteSlot_lowByte, orientationSlot_orientation]

/-- Settles O3: the word's fields are the request of the operation they spell, and the fields give the word back. -/
theorem encodeOfDecodeIsTheWord : Obligations.EncodeOfDecodeIsTheWord := by
  intro w i h
  obtain ⟨hi, hc⟩ := decode_eq_ok_iff.mp h
  rw [encode, request_eq_of_legal hi hc, Request.toWord_ofWord]

/-! ### The match/mask table -/

/-- A row selects a request field by field (R54). -/
theorem selects_toWord_iff (name : String) (p m q : Request) :
    TableRow.selects ⟨name, p.toWord, m.toWord⟩ q.toWord = true ↔
      q.op &&& m.op = p.op ∧ q.A &&& m.A = p.A ∧ q.B &&& m.B = p.B ∧ q.C &&& m.C = p.C ∧ q.D &&& m.D = p.D := by
  have hand : q.toWord &&& m.toWord =
      Request.toWord ⟨q.op &&& m.op, q.A &&& m.A, q.B &&& m.B, q.C &&& m.C, q.D &&& m.D⟩ :=
    Laws.EncodeLegal.and_append5 ..
  have hinj : Function.Injective Request.toWord := fun _ _ => Request.toWord_injective
  obtain ⟨op, A, B, C, D⟩ := p
  simp only [TableRow.selects, beq_iff_eq, hand, hinj.eq_iff, Request.mk.injEq]

theorem and_FF (x : Byte) : x &&& 0xFF#8 = x := BitVec.and_allOnes

theorem and_FFFF (x : Slot) : x &&& 0xFFFF#16 = x := BitVec.and_allOnes

/-- The mask of an 8-bit operand's slot tests the high byte (R54). -/
theorem highByteClear_of_mask {x : Slot} (h : x &&& 0xFF00#16 = 0#16) : x.highByteClear = true := by
  have hx : x.extractLsb' 8 8 &&& BitVec.allOnes 8 = 0#8 :=
    BitVec.extractLsb'_and.symm.trans (congrArg (BitVec.extractLsb' 8 8) h)
  exact beq_iff_eq.mpr (BitVec.and_allOnes.symm.trans hx)

/-- The mask of an orientation's slot tests bits 15:2 (R54). -/
theorem aboveOrientationClear_of_mask {x : Slot} (h : x &&& 0xFFFC#16 = 0#16) : x.aboveOrientationClear = true := by
  have hx : x.extractLsb' 2 14 &&& BitVec.allOnes 14 = 0#14 :=
    BitVec.extractLsb'_and.symm.trans (congrArg (BitVec.extractLsb' 2 14) h)
  exact beq_iff_eq.mpr (BitVec.and_allOnes.symm.trans hx)

/-- A word that a row selects decodes to the row's operation: the row fixes the opcode, and its masked slots are those
the operation wants zero (R54). -/
theorem decode_of_selects {w : ReqWord} {t : TableRow} (ht : t ∈ opcodeTable) (hsel : t.selects w = true) :
    ∃ i, decode w = .ok i ∧ i.mnemonic = t.mnemonic := by
  obtain ⟨name, pattern, mask⟩ := t
  rw [← Request.toWord_ofWord w, ← Request.toWord_ofWord pattern, ← Request.toWord_ofWord mask,
    selects_toWord_iff] at hsel
  simp only [decode_eq_ok_iff]
  generalize Request.ofWord w = q at hsel ⊢
  obtain ⟨op, A, B, C, D⟩ := q
  obtain ⟨hop, hA, hB, hC, hD⟩ := hsel
  simp only [opcodeTable, List.mem_cons, TableRow.mk.injEq, List.not_mem_nil, or_false] at ht
  rcases ht with h | h | h | h | h | h | h | h | h | h | h | h
  all_goals
    obtain ⟨rfl, rfl, rfl⟩ := h
    obtain rfl := (and_FF op).symm.trans hop
    refine ⟨_, ⟨rfl, ?_⟩, rfl⟩
    simp_all [Request.ofWord, Request.reservedClear, and_FFFF, highByteClear_of_mask, aboveOrientationClear_of_mask]

/-- The encoder gives every operation a word of its own row (R54). -/
theorem encode_selects_row (i : Instr) : Laws.EncodeLegal.Statement i := by
  cases i with
  | encode r g b => exact Laws.EncodeLegal.encode r g b
  | decode p => exact Laws.EncodeLegal.decode p
  | nearlyEqual pa pb tol => exact Laws.EncodeLegal.nearlyEqual pa pb tol
  | flagsFor o => exact Laws.EncodeLegal.flagsFor o
  | effectiveSize w h o => exact Laws.EncodeLegal.effectiveSize w h o
  | getScreenSize => exact Laws.EncodeLegal.getScreenSize
  | reset => exact Laws.EncodeLegal.reset
  | setOrientation o => exact Laws.EncodeLegal.setOrientation o
  | setWindow x0 y0 x1 y1 => exact Laws.EncodeLegal.setWindow x0 y0 x1 y1
  | streamPixel p => exact Laws.EncodeLegal.streamPixel p
  | getStatus => exact Laws.EncodeLegal.getStatus
  | getRemaining => exact Laws.EncodeLegal.getRemaining

/-- No two rows have one mnemonic (R54). -/
theorem row_eq_of_mnemonic : ∀ t ∈ opcodeTable, ∀ u ∈ opcodeTable, t.mnemonic = u.mnemonic → t = u := by
  decide

/-- A word that decodes selects the row of its operation (R54). -/
theorem selects_of_decode {w : ReqWord} {t : TableRow} {i : Instr} (ht : t ∈ opcodeTable) (hd : decode w = .ok i)
    (hm : i.mnemonic = t.mnemonic) : t.selects w = true := by
  obtain ⟨u, hu, hum, hsel⟩ := encode_selects_row i
  obtain rfl : u = t := row_eq_of_mnemonic u hu t ht (hum.trans hm)
  rwa [encodeOfDecodeIsTheWord w i hd] at hsel

/-- Settles O4: a selected word's fields spell the row's operation; a word that decodes is its operation's encoding, which
selects the row of that mnemonic, the only one. -/
theorem tableRowSelectsItsOperation : Obligations.TableRowSelectsItsOperation :=
  fun _ _ ht => ⟨decode_of_selects ht, fun ⟨_, hd, hm⟩ => selects_of_decode ht hd hm⟩

/-- A word that decodes is legal (R55). -/
theorem wellFormed_of_decode {w : ReqWord} {i : Instr} (hd : decode w = .ok i) : w.WellFormed = true := by
  obtain ⟨t, ht, hm, -⟩ := encode_selects_row i
  exact List.any_eq_true.mpr ⟨t, ht, selects_of_decode ht hd hm.symm⟩

end Sys2Proof

namespace Sys2Proof.Machine

/-! ### The illegal word -/

/-- Settles O5: a word that decodes would be legal, so this one is taken and refused. -/
theorem illegalWordIsRefused : Obligations.IllegalWordIsRefused := by
  intro s w rest hs hw
  rw [step_of_requests hs]
  cases hd : decode w with
  | ok i => simp [wellFormed_of_decode hd] at hw
  | error r => rfl

/-! ### Words of the spec, error codes and the response word -/

/-- Settles O1: the decoder evaluates each word (R53, R54). -/
theorem wordsOfTheSpecDecode : Obligations.WordsOfTheSpecDecode :=
  ⟨rfl, rfl, rfl, rfl, rfl, rfl, rfl, rfl, rfl, rfl, rfl, rfl⟩

/-- Codes above 5 are never produced (R57). -/
theorem Err.code_le (e : Err) : e.code.toNat ≤ 5 := by
  cases e <;> decide

/-- The error code is in bits 39:32 (R52). -/
theorem Response.word_code (r : Response) : r.word.extractLsb' 32 8 = r.err.code :=
  BitVec.extractLsb'_append_eq_left

/-- The result is in bits 31:0 (R52). -/
theorem Response.word_res (r : Response) : r.word.extractLsb' 0 32 = r.res :=
  BitVec.extractLsb'_append_eq_right

/-- Settles O9: the codes one by one, their bound, and the two fields of the response word. -/
theorem errorCodesAndResponseFields : Obligations.ErrorCodesAndResponseFields :=
  ⟨rfl, rfl, rfl, rfl, rfl, rfl, Err.code_le, fun r => ⟨r.word_code, r.word_res⟩⟩

end Sys2Proof.Machine
end

section
/-! PROOFS. The codec chapter (spec/40_pixelcodec.md): where the fields of a packed colour lie (R70), ENCODE, DECODE and
NEARLY_EQUAL (R71 to R73), the laws of the codec (R74), and its purity (R75). -/

namespace Sys2Proof

/-! ### The words of an operation -/

/-- A request whose opcode is defined decodes exactly where its must-be-zero bits are clear (R54, R55). -/
theorem decode_of_operation {q : Request} {i : Instr} (hi : q.operation = some i) :
    decode q.toWord = if q.reservedClear i then .ok i else .error (.reservedBitsSet q.op) := by
  rw [decode_toWord, hi]

theorem Slot.highByteClear_iff (x : Slot) : x.highByteClear = true ↔ x.extractLsb' 8 8 = 0 := beq_iff_eq

end Sys2Proof

namespace Sys2Proof.Machine

/-! ### Where the fields of a packed colour lie -/

/-- The swapped value's high byte is the low byte, slice by slice (R70). -/
theorem extractLsb'_swap16_high (p : Slot) {i n : Nat} (h : i + n ≤ 8) :
    (swap16 p).extractLsb' (8 + i) n = p.extractLsb' i n := by
  rw [swap16, BitVec.extractLsb'_append_eq_of_le (by omega), Nat.add_sub_cancel_left]
  exact BitVec.extractLsb'_extractLsb'_of_le h

/-- The swapped value's low byte is the high byte, slice by slice (R70). -/
theorem extractLsb'_swap16_low (p : Slot) {i n : Nat} (h : i + n ≤ 8) :
    (swap16 p).extractLsb' i n = p.extractLsb' (8 + i) n := by
  have hp : swap16 (swap16 p) = p := by simp [swap16]
  rw [← extractLsb'_swap16_high (swap16 p) h, hp]

/-- The fields of an encoded colour, from the top of the packed value down (R70, R71): the byte boundary of the natural
value cuts green in half, and the swap puts blue's byte first. -/
theorem packColor_eq (c : Rgb) : packColor c =
    c.g.extractLsb' 2 3 ++ c.b.extractLsb' 3 5 ++ c.r.extractLsb' 3 5 ++ c.g.extractLsb' 5 3 := by
  have hgreen : c.g.extractLsb' 2 6 = c.g.extractLsb' 5 3 ++ c.g.extractLsb' 2 3 :=
    (BitVec.extractLsb'_append_extractLsb'_eq_extractLsb' (len₁ := 3) (len₂ := 3) rfl).symm
  have hbytes : (c.r.extractLsb' 3 5 ++ c.g.extractLsb' 2 6 ++ c.b.extractLsb' 3 5 : Slot) =
      (c.r.extractLsb' 3 5 ++ c.g.extractLsb' 5 3 : Byte) ++ (c.g.extractLsb' 2 3 ++ c.b.extractLsb' 3 5 : Byte) := by
    rw [hgreen, BitVec.append_assoc, BitVec.append_assoc, BitVec.append_assoc]
    rfl
  rw [packColor, hbytes, swap16, Slot.lowByte_append, Slot.highByte_append]
  exact BitVec.append_assoc'

section
variable (c : Rgb)

theorem packColor_greenLow : (packColor c).extractLsb' 13 3 = c.g.extractLsb' 2 3 := by
  rw [packColor_eq, BitVec.extractLsb'_append_eq_of_le (by decide), BitVec.extractLsb'_append_eq_of_le (by decide)]
  exact BitVec.extractLsb'_append_eq_left

theorem packColor_blue : (packColor c).extractLsb' 8 5 = c.b.extractLsb' 3 5 := by
  rw [packColor_eq, BitVec.extractLsb'_append_eq_of_le (by decide), BitVec.extractLsb'_append_eq_of_le (by decide)]
  exact BitVec.extractLsb'_append_eq_right

theorem packColor_red : (packColor c).extractLsb' 3 5 = c.r.extractLsb' 3 5 := by
  rw [packColor_eq, BitVec.extractLsb'_append_eq_of_le (by decide)]
  exact BitVec.extractLsb'_append_eq_right

theorem packColor_greenHigh : (packColor c).extractLsb' 0 3 = c.g.extractLsb' 5 3 := by
  rw [packColor_eq]
  exact BitVec.extractLsb'_append_eq_right

end

/-- A colour is decoded from the stored fields where R70 places them, green from its two halves (R72). -/
theorem unpackColor_eq (p : Slot) : unpackColor p =
    ⟨widen5 (p.extractLsb' 3 5), widen6 (p.extractLsb' 0 3 ++ p.extractLsb' 13 3), widen5 (p.extractLsb' 8 5)⟩ := by
  have hred : (swap16 p).extractLsb' 11 5 = p.extractLsb' 3 5 := extractLsb'_swap16_high p (i := 3) (by decide)
  have hblue : (swap16 p).extractLsb' 0 5 = p.extractLsb' 8 5 := extractLsb'_swap16_low p (by decide)
  have hgreen : (swap16 p).extractLsb' 5 6 = p.extractLsb' 0 3 ++ p.extractLsb' 13 3 :=
    calc (swap16 p).extractLsb' 5 6
      _ = (swap16 p).extractLsb' 8 3 ++ (swap16 p).extractLsb' 5 3 :=
        (BitVec.extractLsb'_append_extractLsb'_eq_extractLsb' (len₁ := 3) (len₂ := 3) rfl).symm
      _ = p.extractLsb' 0 3 ++ p.extractLsb' 13 3 := by
        rw [extractLsb'_swap16_high p (i := 0) (by decide), extractLsb'_swap16_low p (by decide)]
  simp only [unpackColor, hred, hgreen, hblue]

/-! ### ENCODE, DECODE and NEARLY_EQUAL -/

/-- Settles O11: the packed colour has its fields where R70 places them, and the answer is its zero extension. -/
theorem encodeAnswersThePackedColour : Obligations.EncodeAnswersThePackedColour := by
  refine ⟨fun r g b s => ⟨packColor ⟨r, g, b⟩, packColor_greenLow _, packColor_blue _, packColor_red _,
    packColor_greenHigh _, ?_⟩, fun A B C D => ?_⟩
  · have hzext : (packColor ⟨r, g, b⟩).setWidth 32 = 0#16 ++ packColor ⟨r, g, b⟩ :=
      BitVec.setWidth_eq_append (by decide)
    rw [← hzext]
    rfl
  · refine (decode_of_operation (q := ⟨0x01, A, B, C, D⟩) rfl).trans (if_congr ?_ rfl rfl)
    simp [Request.reservedClear, Slot.highByteClear_iff, and_assoc]

/-- Settles O12: DECODE answers the channels widened from the stored fields. -/
theorem decodeAnswersTheWidenedChannels : Obligations.DecodeAnswersTheWidenedChannels := by
  refine ⟨?_, fun A B C D => ?_⟩
  · rintro p s r5 b5 g6 r g b rfl rfl rfl rfl rfl rfl
    have hexec : exec (.decode p) s = .next (succeed (rgbWord (unpackColor p)) s) := rfl
    rw [hexec, unpackColor_eq]
    rfl
  · refine (decode_of_operation (q := ⟨0x02, A, B, C, D⟩) rfl).trans (if_congr ?_ rfl rfl)
    simp [Request.reservedClear, and_assoc]

/-- A difference in naturals is the absolute difference in integers (R76). -/
theorem absDiff_le_iff (a b : Byte) (n : Nat) : absDiff a b ≤ n ↔ |(a.toNat : Int) - b.toNat| ≤ n := by
  rw [abs_le, absDiff]
  omega

/-- When two packed colours are nearly equal, in integers (R73). -/
theorem nearlyEqual_iff (shift : Nat) (pa pb : Slot) (tol : Byte) : nearlyEqual shift pa pb tol = true ↔
    pa = pb ∨
      (|((unpackColor pa).r.toNat : Int) - (unpackColor pb).r.toNat| ≤ tol.toNat ∧
       |((unpackColor pa).g.toNat : Int) - (unpackColor pb).g.toNat| ≤ (tol.toNat / 2 ^ shift : Nat) ∧
       |((unpackColor pa).b.toNat : Int) - (unpackColor pb).b.toNat| ≤ tol.toNat) := by
  simp only [nearlyEqual, Bool.or_eq_true, Bool.and_eq_true, beq_iff_eq, decide_eq_true_eq, absDiff_le_iff,
    Nat.shiftRight_eq_div_pow, and_assoc]

/-- Settles O13: the model's Boolean test is the comparison in integers. -/
theorem nearlyEqualComparesDecodedChannels : Obligations.NearlyEqualComparesDecodedChannels := by
  refine ⟨fun pa pb tol s => ?_, fun A B C D => ?_⟩
  · simp only [← nearlyEqual_iff]
    rfl
  · refine (decode_of_operation (q := ⟨0x03, A, B, C, D⟩) rfl).trans (if_congr ?_ rfl rfl)
    simp [Request.reservedClear, Slot.highByteClear_iff]

/-- Settles O15: the codec operations answer what their operands determine, and NEARLY_EQUAL reads the shift besides. -/
theorem codecOperationsArePure : Obligations.CodecOperationsArePure := by
  refine ⟨fun r g b => ⟨_, fun s => rfl⟩, fun p => ⟨_, fun s => rfl⟩, fun pa pb tol shift =>
    ⟨if nearlyEqual shift pa pb tol then 1 else 0, fun s hs => ?_⟩⟩
  subst hs
  rfl

/-! ### The codec is the identity on packed colours (R74) -/

/-- Widening keeps the stored bits on top (R72). -/
theorem widen5_eq_append (v : BitVec 5) : ∃ low : BitVec 3, widen5 v = v ++ low := by
  unfold widen5
  split
  · next h => exact ⟨7, h ▸ rfl⟩
  · exact ⟨0, rfl⟩

theorem widen6_eq_append (v : BitVec 6) : ∃ low : BitVec 2, widen6 v = v ++ low := by
  unfold widen6
  split
  · next h => exact ⟨3, h ▸ rfl⟩
  · exact ⟨0, rfl⟩

theorem extractLsb'_widen5 (v : BitVec 5) : (widen5 v).extractLsb' 3 5 = v := by
  obtain ⟨low, h⟩ := widen5_eq_append v
  rw [h, BitVec.extractLsb'_append_eq_left]

theorem extractLsb'_widen6 (v : BitVec 6) (i n : Nat) : (widen6 v).extractLsb' (2 + i) n = v.extractLsb' i n := by
  obtain ⟨low, h⟩ := widen6_eq_append v
  rw [h, BitVec.extractLsb'_append_eq_of_le (by omega), Nat.add_sub_cancel_left]

/-- A packed colour is its four fields (R70). -/
theorem append_fields (p : Slot) :
    p.extractLsb' 13 3 ++ p.extractLsb' 8 5 ++ p.extractLsb' 3 5 ++ p.extractLsb' 0 3 = p := by
  rw [BitVec.extractLsb'_append_extractLsb'_eq_extractLsb' (start₁ := 8) (by decide),
    BitVec.extractLsb'_append_extractLsb'_eq_extractLsb' (start₁ := 3) (by decide),
    BitVec.extractLsb'_append_extractLsb'_eq_extractLsb' (start₁ := 0) (by decide)]
  exact BitVec.extractLsb'_eq_self

/-- Widening loses no stored bit, so encoding a decoded colour gives it back. -/
theorem packColor_unpackColor : Function.LeftInverse packColor unpackColor := by
  intro p
  rw [unpackColor_eq, packColor_eq, extractLsb'_widen5, extractLsb'_widen5, extractLsb'_widen6 _ 0 3,
    extractLsb'_widen6 _ 3 3, BitVec.extractLsb'_append_eq_left, BitVec.extractLsb'_append_eq_right]
  exact append_fields p

/-! ### The round trip of a colour, channel by channel (R74) -/

/-- What a red or blue channel becomes by encoding and decoding. -/
def roundTrip5 (v : Byte) : Byte := widen5 (v.extractLsb' 3 5)

/-- What a green channel becomes by encoding and decoding. -/
def roundTrip6 (v : Byte) : Byte := widen6 (v.extractLsb' 2 6)

theorem unpackColor_packColor (c : Rgb) :
    unpackColor (packColor c) = ⟨roundTrip5 c.r, roundTrip6 c.g, roundTrip5 c.b⟩ := by
  have hgreen : c.g.extractLsb' 5 3 ++ c.g.extractLsb' 2 3 = c.g.extractLsb' 2 6 :=
    BitVec.extractLsb'_append_extractLsb'_eq_extractLsb' rfl
  rw [unpackColor_eq, packColor_red, packColor_blue, packColor_greenHigh, packColor_greenLow, hgreen]
  rfl

/-- A channel is rounded down to a multiple of the quantisation step, except that the topmost step goes to 255. -/
def Quantises (step : Nat) (f : Byte → Byte) : Prop :=
  ∀ v : Byte, (f v).toNat = if 256 - step ≤ v.toNat then 255 else v.toNat / step * step

theorem widen5_toNat (v : BitVec 5) : (widen5 v).toNat = if v.toNat = 31 then 255 else v.toNat * 8 := by
  revert v; decide

theorem widen6_toNat (v : BitVec 6) : (widen6 v).toNat = if v.toNat = 63 then 255 else v.toNat * 4 := by
  revert v; decide

/-- The top bits of a word are its quotient. -/
theorem extractLsb'_top_toNat (k n : Nat) (v : BitVec (k + n)) : (v.extractLsb' k n).toNat = v.toNat / 2 ^ k := by
  have hv : v.toNat / 2 ^ k < 2 ^ n := Nat.div_lt_of_lt_mul (by rw [← pow_add]; exact v.isLt)
  rw [BitVec.extractLsb'_toNat, Nat.shiftRight_eq_div_pow, Nat.mod_eq_of_lt hv]

theorem quantises_roundTrip5 : Quantises 8 roundTrip5 := by
  intro v
  have hv : v.toNat < 256 := v.isLt
  have htop : (v.extractLsb' 3 5).toNat = v.toNat / 8 := extractLsb'_top_toNat 3 5 v
  rw [roundTrip5, widen5_toNat, htop]
  split_ifs <;> omega

theorem quantises_roundTrip6 : Quantises 4 roundTrip6 := by
  intro v
  have hv : v.toNat < 256 := v.isLt
  have htop : (v.extractLsb' 2 6).toNat = v.toNat / 4 := extractLsb'_top_toNat 2 6 v
  rw [roundTrip6, widen6_toNat, htop]
  split_ifs <;> omega

namespace Quantises
variable {step : Nat} {f : Byte → Byte}

theorem map_zero (hf : Quantises step f) (hstep : step < 256) : f 0 = 0 := by
  have h := hf 0
  rw [if_neg (by simp; omega)] at h
  exact BitVec.eq_of_toNat_eq (by simpa using h)

theorem map_max (hf : Quantises step f) (hpos : 0 < step) : f 255 = 255 := by
  have h := hf 255
  rw [if_pos (by simp; omega)] at h
  exact BitVec.eq_of_toNat_eq h

theorem error_le (hf : Quantises step f) (hpos : 0 < step) (v : Byte) :
    |((f v).toNat : Int) - v.toNat| ≤ (step - 1 : Nat) := by
  have h := hf v
  have hv : v.toNat < 256 := v.isLt
  have hdiv := Nat.div_add_mod' v.toNat step
  have hmod := Nat.mod_lt v.toNat hpos
  rw [abs_le]
  split_ifs at h <;> omega

theorem exceeds_iff (hf : Quantises step f) (v : Byte) :
    v.toNat < (f v).toNat ↔ 256 - step ≤ v.toNat ∧ v.toNat ≤ 254 := by
  have h := hf v
  have hv : v.toNat < 256 := v.isLt
  have hdiv := Nat.div_mul_le_self v.toNat step
  split_ifs at h <;> omega

/-- The round trip exceeds the original in the topmost step below 255 and nowhere else. -/
theorem exceeds_only (hf : Quantises step f) (v : Byte) :
    (256 - step ≤ v.toNat ∧ v.toNat ≤ 254 → v.toNat < (f v).toNat) ∧
    (¬(256 - step ≤ v.toNat ∧ v.toNat ≤ 254) → (f v).toNat ≤ v.toNat) :=
  ⟨(hf.exceeds_iff v).mpr, fun h => not_lt.mp (mt (hf.exceeds_iff v).mp h)⟩

end Quantises

/-- Settles O14: each channel's round trip is a quantisation, and encoding undoes decoding. -/
theorem codecLaws : Obligations.CodecLaws := by
  have h5 := quantises_roundTrip5
  have h6 := quantises_roundTrip6
  have hinv := packColor_unpackColor
  refine ⟨fun c => ?_, fun c => ?_, fun c => hinv _, ⟨hinv, hinv.injective, hinv.surjective⟩, fun c => ?_⟩
  all_goals rw [unpackColor_packColor]
  · have zero5 := h5.map_zero (by decide)
    have zero6 := h6.map_zero (by decide)
    have max5 := h5.map_max (by decide)
    have max6 := h6.map_max (by decide)
    exact ⟨fun h => h ▸ zero5, fun h => h ▸ max5, fun h => h ▸ zero6, fun h => h ▸ max6,
      fun h => h ▸ zero5, fun h => h ▸ max5⟩
  · exact ⟨h5.error_le (by decide) c.r, h6.error_le (by decide) c.g, h5.error_le (by decide) c.b⟩
  · exact ⟨h5.exceeds_only c.r, h6.exceeds_only c.g, h5.exceeds_only c.b⟩

end Sys2Proof.Machine
end

section
/-! PROOFS. The orientation chapter (spec/41_orientation.md): FLAGS_FOR (R83), the constraints on the flags table (R81),
EFFECTIVE_SIZE (R84, R85) and GET_SCREEN_SIZE (R86). -/

namespace Sys2Proof

theorem Slot.aboveOrientationClear_iff (x : Slot) : x.aboveOrientationClear = true ↔ x.extractLsb' 2 14 = 0 :=
  beq_iff_eq

end Sys2Proof

namespace Sys2Proof.Machine

/-! ### The flags table -/

/-- The answer is the byte below 24 zero bits (R52, R83). -/
theorem exec_flagsFor (o : Orientation) (s : State) :
    exec (.flagsFor o) s = .next (succeed (0#24 ++ flagsOf s.cfg.flagsTable o) s) := by
  have hzext : (flagsOf s.cfg.flagsTable o).setWidth 32 = 0#24 ++ flagsOf s.cfg.flagsTable o :=
    BitVec.setWidth_eq_append (by decide)
  rw [← hzext]
  rfl

/-- Settles O16: the table has one byte per orientation, and the must-be-zero bits of the word are those of R54. -/
theorem flagsForAnswersTheTableByte : Obligations.FlagsForAnswersTheTableByte := by
  refine ⟨fun s => ⟨exec_flagsFor .np s, exec_flagsFor .nl s, exec_flagsFor .fp s, exec_flagsFor .fl s⟩,
    fun A B C D => ?_⟩
  refine (decode_of_operation (q := ⟨0x10, A, B, C, D⟩) rfl).trans (if_congr ?_ rfl rfl)
  simp [Request.reservedClear, Slot.aboveOrientationClear_iff, and_assoc]

/-- The constraints on a flags table, orientation by orientation (R81). -/
theorem flagsOf_constraints_of_wf {t : FlagsTable} (h : t.wf = true) (o : Orientation) :
    (flagsOf t o).extractLsb' 0 2 = 0 ∧ colorChannelOrder (flagsOf t o) = colorChannelOrder t.np := by
  have hmem : flagsOf t o ∈ [t.np, t.nl, t.fp, t.fl] := by cases o <;> simp [flagsOf]
  simp only [FlagsTable.wf, Bool.and_eq_true, List.all_eq_true, beq_iff_eq] at h
  obtain ⟨hlow, horder⟩ := h
  exact ⟨hlow _ hmem, horder _ hmem⟩

/-- Settles O17: a well-formed configuration has a well-formed table, whose bytes share the order of normal-portrait's. -/
theorem flagsTableKeepsTheSourceConstraints : Obligations.FlagsTableKeepsTheSourceConstraints := by
  intro c hwf o o'
  obtain ⟨-, -, -, htable, -⟩ := (Cfg.wf_iff c).1 hwf
  obtain ⟨hlow, horder⟩ := flagsOf_constraints_of_wf htable o
  obtain ⟨-, horder'⟩ := flagsOf_constraints_of_wf htable o'
  exact ⟨hlow, horder.trans horder'.symm⟩

/-! ### The effective size -/

theorem exec_effectiveSize (w h : Slot) (o : Orientation) (s : State) :
    exec (.effectiveSize w h o) s = .next (succeed (if landscape o then h ++ w else w ++ h) s) := by
  cases o <;> rfl

/-- Settles O19: the orientation decides by `landscape` alone whether the pair is swapped. -/
theorem effectiveSizeSwapsForLandscape : Obligations.EffectiveSizeSwapsForLandscape := by
  refine ⟨fun w h s => ?_, fun A B C D => ?_⟩
  · exact ⟨exec_effectiveSize w h .np s, exec_effectiveSize w h .nl s, exec_effectiveSize w h .fp s,
      exec_effectiveSize w h .fl s⟩
  · refine (decode_of_operation (q := ⟨0x11, A, B, C, D⟩) rfl).trans (if_congr ?_ rfl rfl)
    simp [Request.reservedClear, Slot.aboveOrientationClear_iff]

theorem exec_getScreenSize (s : State) : exec .getScreenSize s = .next (succeed (s.ew ++ s.eh) s) := rfl

/-- Settles O20: the answer is the cached pair, which the geometry invariant ties to the native dimensions. -/
theorem getScreenSizeAnswersTheCachedSize : Obligations.GetScreenSizeAnswersTheCachedSize := by
  refine ⟨exec_getScreenSize, fun s hi => ?_, fun A B C D => ?_⟩
  · rw [← hi.geometry]
  · refine (decode_of_operation (q := ⟨0x12, A, B, C, D⟩) rfl).trans (if_congr ?_ rfl rfl)
    simp [Request.reservedClear, and_assoc]

end Sys2Proof.Machine
end

section
/-! PROOFS. The framer chapter (spec/42_framer.md): the bound on the pixel count (R100), the read-backs (R96, R97), RESET
(R91, R122), SET_ORIENTATION, SET_WINDOW and STREAM_PIXEL (R93 to R95) with their channel failures (R99, R124),
admission (R98), and the phase (R90). -/

namespace Sys2Proof.Machine

/-! ### The pixel count -/

/-- Settles O45: each dimension of the window is between 1 and the screen's. -/
theorem pixelCountNeverOverflows : Obligations.PixelCountNeverOverflows := by
  intro ew eh x0 y0 x1 y1 hin
  obtain ⟨hpos, hle⟩ := pixelCount_of_insideScreen hin
  exact ⟨hpos, hle, hle.trans_lt (screen_lt ew eh)⟩

theorem insideScreen_iff (ew eh x0 y0 x1 y1 : Slot) : insideScreen ew eh x0 y0 x1 y1 = true ↔
    x0.toNat ≤ x1.toNat ∧ x1.toNat < ew.toNat ∧ y0.toNat ≤ y1.toNat ∧ y1.toNat < eh.toNat := by
  simp only [insideScreen, Bool.and_eq_true, decide_eq_true_eq, BitVec.le_def, BitVec.lt_def, and_assoc]

/-- The result of SET_WINDOW holds its count exactly (R94, R100). -/
theorem toNat_pixelCount {ew eh x0 y0 x1 y1 : Slot} (h : insideScreen ew eh x0 y0 x1 y1 = true) :
    (BitVec.ofNat 32 (pixelCount x0 y0 x1 y1)).toNat = (x1.toNat - x0.toNat + 1) * (y1.toNat - y0.toNat + 1) := by
  obtain ⟨-, -, hlt⟩ := pixelCountNeverOverflows ew eh x0 y0 x1 y1 h
  rw [BitVec.toNat_ofNat, Nat.mod_eq_of_lt hlt, pixelCount]

/-! ### The read-backs -/

/-- The status result as its fields, from the top (R52, R96). -/
theorem statusWord_eq (csN : Bool) (o : Orientation) (p : Phase) :
    statusWord csN o p = 0#27 ++ (BitVec.ofBool csN ++ o.bits ++ p.bits) :=
  BitVec.setWidth_eq_append (by decide)

section
variable (csN : Bool) (o : Orientation) (p : Phase)

theorem statusWord_phase : (statusWord csN o p).extractLsb' 0 2 = p.bits := by
  rw [statusWord_eq, BitVec.extractLsb'_append_eq_of_add_le (by decide)]
  exact BitVec.extractLsb'_append_eq_right

theorem statusWord_orient : (statusWord csN o p).extractLsb' 2 2 = o.bits := by
  rw [statusWord_eq, BitVec.extractLsb'_append_eq_of_add_le (by decide),
    BitVec.extractLsb'_append_eq_of_le (by decide)]
  exact BitVec.extractLsb'_append_eq_right

theorem statusWord_csN : (statusWord csN o p).getLsbD 4 = csN := by
  simp only [statusWord_eq, BitVec.getLsbD_append]
  simp

theorem statusWord_reserved : (statusWord csN o p).extractLsb' 5 27 = 0 := by
  rw [statusWord_eq]
  exact BitVec.extractLsb'_append_eq_left

end

/-- Settles O21: the answer is made of the three registers, each in its field. -/
theorem getStatusAnswersItsFields : Obligations.GetStatusAnswersItsFields := by
  refine ⟨fun s => ⟨statusWord s.csN s.orient s.phase, statusWord_phase _ _ _, statusWord_orient _ _ _,
    statusWord_csN _ _ _, statusWord_reserved _ _ _, rfl⟩, fun A B C D => ?_⟩
  refine (decode_of_operation (q := ⟨0x24, A, B, C, D⟩) rfl).trans (if_congr ?_ rfl rfl)
  simp [Request.reservedClear, and_assoc]

/-- Settles O22: the answer is the register, which the invariants hold at 0 while no stream is open. -/
theorem getRemainingAnswersRem : Obligations.GetRemainingAnswersRem := by
  refine ⟨fun s => rfl, fun s hi hp => hi.rem_eq_zero hp, fun A B C D => ?_⟩
  refine (decode_of_operation (q := ⟨0x25, A, B, C, D⟩) rfl).trans (if_congr ?_ rfl rfl)
  simp [Request.reservedClear, and_assoc]

/-! ### How an operation that uses the channel ends -/

theorem Performs.conclude_sent {f : State → Transfer} {a b : Bool} {es : List Event} (hf : Performs f a b es)
    {s : State} (hs : s.csN = a) (hok : s.channelOk (byteCount es) = true) (e : Err) (k : State → State) :
    conclude e (f s) k = k (afterSent b es s) := by
  rw [hf.sent s hs hok, Machine.conclude_sent]

theorem Performs.conclude_cut {f : State → Transfer} {a b : Bool} {es : List Event} (hf : Performs f a b es)
    {s : State} {j : Nat} (hs : s.csN = a) (hj : j < byteCount es) (hfail : s.channelFailsAt j = true) (e : Err)
    (k : State → State) : conclude e (f s) k = afterFailure e es j s := by
  rw [hf.cut s j hs hj hfail, conclude_failed]
  rfl

/-- Where chip select ends as it began, it is as in the state before. -/
theorem afterSent_of_csN {b : Bool} {s : State} (h : s.csN = b) (es : List Event) : afterSent b es s =
    { s with dc := dcAfter s.dc es, trace := s.trace ++ es, chan := s.chan.skip (byteCount es) } := by
  simp [afterSent, ← h]

/-! ### RESET -/

/-- The events of a RESET before its init sequence (R91). -/
def resetOpening (s : State) : List Event := (if s.csN then [] else [.cs true]) ++ pulseEvents

theorem byteCount_resetOpening (s : State) : byteCount (resetOpening s) = 0 := by
  cases h : s.csN <;> simp [resetOpening, pulseEvents, Event.isTx, h]

theorem dcAfter_resetOpening (d : Option Bool) (s : State) : dcAfter d (resetOpening s) = d := by
  cases h : s.csN <;> simp [resetOpening, pulseEvents, dcAfter, h]

/-- The opening of a RESET is part of its event list, beside the registers that RESET writes itself (R91). -/
theorem resetStart_eq_afterSent (s : State) : resetStart s =
    afterSent true (resetOpening s) { s with rem := 0, rstN := some true, pins := s.pins.skip 1 } := by
  simp only [afterSent, byteCount_resetOpening, dcAfter_resetOpening, Oracle.skip_zero]
  simp only [resetStart_eq, resetOpening, List.append_assoc]

theorem resetStart_csN (s : State) : (resetStart s).csN = true := by rw [resetStart_eq]

theorem resetStart_channelOk (s : State) (n : Nat) : (resetStart s).channelOk n = s.channelOk n := by
  rw [resetStart_eq]
  rfl

theorem resetStart_channelFailsAt (s : State) (j : Nat) : (resetStart s).channelFailsAt j = s.channelFailsAt j := by
  rw [resetStart_eq]
  rfl

/-- Settles O23: the init sequence is performed whole from where the pulse leaves the state. -/
theorem resetPulsesAndInitialises : Obligations.ResetPulsesAndInitialises := by
  intro s hpins hok
  have hrelease : (if s.csN = false then [Event.cs true] else []) = if s.csN = true then [] else [.cs true] := by
    cases s.csN <;> rfl
  rw [← resetStart_channelOk] at hok
  rw [exec_reset_eq, if_pos hpins,
    (performs_runInit s.cfg.initSeq).conclude_sent (resetStart_csN s) hok, resetStart_eq, hrelease]
  rfl

/-- Settles O24: the pin test comes before anything else. -/
theorem resetWithoutPinsTouchesNothing : Obligations.ResetWithoutPinsTouchesNothing := by
  intro s hpins
  rw [exec_reset_eq, hpins]
  rfl

/-- Settles O25: the opening sends no byte, so byte `j` of the init sequence is byte `j` of the whole event list. -/
theorem resetCutByAFailingByte : Obligations.ResetCutByAFailingByte := by
  intro s j hpins hj hfail
  rw [← resetStart_channelFailsAt] at hfail
  have hcut : afterCut (initEvents s.cfg.initSeq) j (resetStart s) =
      afterCut (resetEvents s) j { s with rem := 0, rstN := some true, pins := s.pins.skip 1 } := by
    rw [resetStart_eq_afterSent, afterCut_afterSent, byteCount_resetOpening, Nat.zero_add]
    rfl
  rw [exec_reset_eq, if_pos hpins, (performs_runInit s.cfg.initSeq).cut _ j (resetStart_csN s) hj hfail,
    conclude_failed, hcut]
  rfl

/-! ### The operations of an open panel, where the phase admits them -/

theorem exec_setOrientation_of_ready {s : State} (h : s.phase = .ready) (o : Orientation) :
    exec (.setOrientation o) s = .next (conclude .transportError
      (command s.cfg.cmdMemoryAccessControl [flagsOf s.cfg.flagsTable o] s)
      fun t => succeed 0 (cacheGeometry o t)) :=
  congrArg _ (whenPhase_admitted h _)

theorem exec_setWindow_of_inside {x0 y0 x1 y1 : Slot} {s : State} (h : s.phase = .ready)
    (hin : insideScreen s.ew s.eh x0 y0 x1 y1 = true) :
    exec (.setWindow x0 y0 x1 y1) s = .next (conclude .transportError (addressWindow x0 y0 x1 y1 s)
      fun t => succeed (BitVec.ofNat 32 (pixelCount x0 y0 x1 y1))
        (beginStream (BitVec.ofNat 32 (pixelCount x0 y0 x1 y1)) t)) :=
  congrArg Host.Outcome.next ((whenPhase_admitted h _).trans (if_pos hin))

theorem exec_streamPixel_of_streaming {s : State} (h : s.phase = .streaming) (p : Slot) :
    exec (.streamPixel p) s = .next (conclude .transportError (sendAll (pixelBytes p) (driveDC true s))
      fun t => succeed (countPixel t).rem (countPixel t)) :=
  congrArg _ (whenPhase_admitted h _)

/-- Settles O26: the transaction performs its four events, then the geometry is cached. -/
theorem setOrientationSendsThenCaches : Obligations.SetOrientationSendsThenCaches := by
  intro o s hp hcs hok
  have hperf := performs_command s.cfg.cmdMemoryAccessControl [flagsOf s.cfg.flagsTable o]
  rw [exec_setOrientation_of_ready hp, hperf.conclude_sent hcs hok, afterSent_of_csN hcs]
  rfl

/-- Settles O27: the count is exact by R100, and the sixteen events are performed. -/
theorem setWindowOpensTheStream : Obligations.SetWindowOpensTheStream := by
  intro x0 y0 x1 y1 s hp hcs hx hw hy hh hok
  have hin : insideScreen s.ew s.eh x0 y0 x1 y1 = true := (insideScreen_iff ..).2 ⟨hx, hw, hy, hh⟩
  refine ⟨BitVec.ofNat 32 (pixelCount x0 y0 x1 y1), toNat_pixelCount hin, ?_⟩
  rw [exec_setWindow_of_inside hp hin, addressWindow_sent hcs hok]
  rfl

/-- A pixel whose two bytes succeed is sent, then counted (R95). -/
theorem exec_streamPixel_sent {s : State} (hp : s.phase = .streaming) (hcs : s.csN = false)
    (hok : s.channelOk 2 = true) (p : Slot) : exec (.streamPixel p) s =
      .next (succeed (countPixel (afterSent false (pixelEvents p) s)).rem
        (countPixel (afterSent false (pixelEvents p) s))) := by
  rw [exec_streamPixel_of_streaming hp, (performs_pixel p).conclude_sent hcs hok]

/-- Releasing chip select adds its event to those of the open transaction (R16). -/
theorem driveCS_true_afterSent (es : List Event) (s : State) :
    driveCS true (afterSent false es s) = afterSent true (es ++ [.cs true]) s := by
  simp [driveCS_eq, afterSent, dcAfter, Event.isTx]

/-- Settles O29: the pixel's two bytes are sent, and the count decides whether the transaction is closed. -/
theorem streamPixelSendsAndCounts : Obligations.StreamPixelSendsAndCounts := by
  intro p s hp hcs _ hok
  rw [exec_streamPixel_sent hp hcs hok]
  refine ⟨fun hmore => ⟨s.rem - 1, by bv_omega, ?_⟩, fun hlast => ?_⟩
  · rw [countPixel_more (s := afterSent false (pixelEvents p) s) hmore, afterSent_of_csN hcs]
    rfl
  · rw [countPixel_last (s := afterSent false (pixelEvents p) s) hlast, driveCS_true_afterSent]
    rfl

/-- Settles O30: each operation performs its event list or is cut at the byte that fails. -/
theorem transportFailureCutsTheOperation : Obligations.TransportFailureCutsTheOperation := by
  refine ⟨fun o s j hp hcs hj hfail => ?_, fun x0 y0 x1 y1 s j hp hcs hin hj hfail => ?_,
    fun p s j hp hcs hj hfail => ?_⟩
  · rw [exec_setOrientation_of_ready hp, (performs_command _ _).conclude_cut hcs hj hfail]
  · rw [exec_setWindow_of_inside hp hin, addressWindow_cut hcs hj hfail]
    rfl
  · rw [exec_streamPixel_of_streaming hp, (performs_pixel p).conclude_cut hcs hj hfail]

/-! ### Admission -/

theorem admitted_setOrientation_iff (o : Orientation) (p : Phase) :
    admitted (.setOrientation o) p = true ↔ p = .ready :=
  beq_iff_eq

theorem admitted_setWindow_iff (x0 y0 x1 y1 : Slot) (p : Phase) :
    admitted (.setWindow x0 y0 x1 y1) p = true ↔ p = .ready :=
  beq_iff_eq

theorem admitted_streamPixel_iff (v : Slot) (p : Phase) : admitted (.streamPixel v) p = true ↔ p = .streaming :=
  beq_iff_eq

/-- Where the table of R98 refuses, the operation is refused: only the three phase-bound operations can be. -/
theorem exec_of_not_admitted {i : Instr} {s : State} (h : admitted i s.phase = false) :
    exec i s = .next (fail .sequenceError s) := by
  have hno := Bool.eq_false_iff.1 h
  cases i with
  | setOrientation o => exact congrArg _ (whenPhase_refused (mt (admitted_setOrientation_iff o _).2 hno) _)
  | setWindow x0 y0 x1 y1 => exact congrArg _ (whenPhase_refused (mt (admitted_setWindow_iff x0 y0 x1 y1 _).2 hno) _)
  | streamPixel p => exact congrArg _ (whenPhase_refused (mt (admitted_streamPixel_iff p _).2 hno) _)
  | encode | decode | nearlyEqual | flagsFor | effectiveSize | getScreenSize | reset | getStatus | getRemaining =>
    cases h

/-- An operation that the table of R98 admits reports no SequenceError. -/
theorem err_ne_sequenceError_of_admitted {i : Instr} {s t : State} (hadm : admitted i s.phase = true)
    (h : exec i s = .next t) : (lastResponse t).err ≠ .sequenceError := by
  cases i with
  | reset => obtain ⟨-, rfl⟩ | ⟨-, u, -, rfl⟩ | ⟨-, u, -, rfl⟩ := exec_reset_cases h <;> simp
  | setOrientation o =>
    obtain ⟨hp, -⟩ | ⟨-, u, -, rfl⟩ | ⟨-, u, -, rfl⟩ := exec_setOrientation_cases h
    · exact absurd ((admitted_setOrientation_iff o _).1 hadm) hp
    · simp
    · simp
  | setWindow x0 y0 x1 y1 =>
    obtain ⟨hp, -⟩ | ⟨-, -, rfl⟩ | ⟨-, -, u, -, rfl⟩ | ⟨-, -, u, -, rfl⟩ := exec_setWindow_cases h
    · exact absurd ((admitted_setWindow_iff x0 y0 x1 y1 _).1 hadm) hp
    · simp
    · simp
    · simp
  | streamPixel p =>
    obtain ⟨hp, -⟩ | ⟨-, u, -, rfl⟩ | ⟨-, u, -, rfl⟩ := exec_streamPixel_cases h
    · exact absurd ((admitted_streamPixel_iff p _).1 hadm) hp
    · simp
    · simp
  | encode | decode | nearlyEqual | flagsFor | effectiveSize | getScreenSize | getStatus | getRemaining =>
    obtain ⟨v, rfl⟩ := exec_readsOnly rfl h
    simp

/-- Settles O31: the two directions of the admission table. -/
theorem admissionByPhase : Obligations.AdmissionByPhase :=
  fun _ _ => ⟨exec_of_not_admitted, fun hadm _ h => err_ne_sequenceError_of_admitted hadm h⟩

/-! ### The phase -/

/-- The last pixel owed ends the stream, any other keeps the phase (R95). -/
theorem countPixel_phase (s : State) : (countPixel s).phase = if s.rem = 1 then .ready else s.phase := by
  have hlast : s.rem - 1 = 0 ↔ s.rem = 1 := sub_eq_zero
  simp only [countPixel, hlast]
  split <;> rfl

theorem exec_reset_phase {s t : State} (h : exec .reset s = .next t) :
    t.phase = phaseAfter s .reset (lastResponse t).err := by
  have hspec := channelSpec_runInit s.cfg.initSeq (resetStart s)
  obtain ⟨hpins, rfl⟩ | ⟨-, u, -, rfl⟩ | ⟨hpins, u, hu, rfl⟩ := exec_reset_cases h
  · simp [phaseAfter, hpins]
  · simp [phaseAfter]
  · simp [phaseAfter, hpins, (hspec.failed u hu).1]

theorem exec_setOrientation_phase {o : Orientation} {s t : State} (h : exec (.setOrientation o) s = .next t) :
    t.phase = phaseAfter s (.setOrientation o) (lastResponse t).err := by
  have hspec := channelSpec_command s.cfg.cmdMemoryAccessControl [flagsOf s.cfg.flagsTable o] s
  obtain ⟨-, rfl⟩ | ⟨hp, u, hu, rfl⟩ | ⟨-, u, hu, rfl⟩ := exec_setOrientation_cases h
  · simp [phaseAfter]
  · simpa [phaseAfter] using (hspec.sent u hu).1.trans hp
  · simp [phaseAfter, (hspec.failed u hu).1]

theorem exec_setWindow_phase {x0 y0 x1 y1 : Slot} {s t : State} (h : exec (.setWindow x0 y0 x1 y1) s = .next t) :
    t.phase = phaseAfter s (.setWindow x0 y0 x1 y1) (lastResponse t).err := by
  have hspec := channelSpec_addressWindow x0 y0 x1 y1 s
  obtain ⟨-, rfl⟩ | ⟨-, -, rfl⟩ | ⟨-, -, u, -, rfl⟩ | ⟨-, -, u, hu, rfl⟩ := exec_setWindow_cases h
  · simp [phaseAfter]
  · simp [phaseAfter]
  · simp [phaseAfter, beginStream]
  · simp [phaseAfter, (hspec.failed u hu).1]

theorem exec_streamPixel_phase {p : Slot} {s t : State} (h : exec (.streamPixel p) s = .next t) :
    t.phase = phaseAfter s (.streamPixel p) (lastResponse t).err := by
  have hspec := channelSpec_pixel p s
  obtain ⟨-, rfl⟩ | ⟨hp, u, hu, rfl⟩ | ⟨-, u, hu, rfl⟩ := exec_streamPixel_cases h
  · simp [phaseAfter]
  · obtain ⟨hphase, hrem⟩ := hspec.sent u hu
    simp [phaseAfter, countPixel_phase, hphase, hrem, hp]
  · simp [phaseAfter, (hspec.failed u hu).1]

/-- Settles O32: the operations that can move the phase, outcome by outcome. -/
theorem phaseMovesByTheTable : Obligations.PhaseMovesByTheTable := by
  intro i s t h
  cases i with
  | reset => exact exec_reset_phase h
  | setOrientation o => exact exec_setOrientation_phase h
  | setWindow x0 y0 x1 y1 => exact exec_setWindow_phase h
  | streamPixel p => exact exec_streamPixel_phase h
  | encode | decode | nearlyEqual | flagsFor | effectiveSize | getScreenSize | getStatus | getRemaining =>
    obtain ⟨v, rfl⟩ := exec_readsOnly rfl h
    rfl

/-- In CORRUPT only a RESET is admitted of the operations that can move the phase (R98, R130). -/
theorem readsOnly_of_admitted_corrupt {i : Instr} (hadm : admitted i .corrupt = true) (hi : i ≠ .reset) :
    readsOnly i = true := by
  cases i with
  | reset => exact absurd rfl hi
  | setOrientation | setWindow | streamPixel => cases hadm
  | encode | decode | nearlyEqual | flagsFor | effectiveSize | getScreenSize | getStatus | getRemaining => rfl

/-- Settles O43: a refused operation and one that only answers keep the phase, and a RESET that fails ends CORRUPT. -/
theorem onlyResetLeavesCorrupt : Obligations.OnlyResetLeavesCorrupt := by
  intro i s t hp h
  cases hadm : admitted i s.phase with
  | false =>
    rw [exec_of_not_admitted hadm] at h
    obtain rfl := next_injective h
    exact .inl hp
  | true =>
    by_cases hi : i = .reset
    · subst hi
      have hphase := exec_reset_phase h
      obtain ⟨-, rfl⟩ | ⟨-, u, -, rfl⟩ | ⟨hpins, u, -, rfl⟩ := exec_reset_cases h
      · exact .inl hp
      · exact .inr ⟨rfl, by simp, rfl⟩
      · exact .inl (by simpa [phaseAfter, hpins] using hphase)
    · rw [hp] at hadm
      obtain ⟨v, rfl⟩ := exec_readsOnly (readsOnly_of_admitted_corrupt hadm hi) h
      exact .inl hp

end Sys2Proof.Machine
end

section
/-! PROOFS. The host's pseudo-operations (spec/43_displaydriver_pseudo.md): issuing a request (R110), CONSTRUCT (R111),
DRAW_PIXEL_SOURCE (R113), SEND_FRAME (R114), and the frame buffer (R115). -/

namespace Sys2Proof.Machine

/-! ### Issuing requests -/

/-- Issuing an operation executes it: its word decodes to it (R9, R54, R110). -/
theorem issue_of_exec {i : Instr} {s t : State} (h : exec i s = .next t) : issue i s = t :=
  issue_of_decode (decodeOfEncodeIsTheOperation i) h

theorem exec_eq_issue (i : Instr) (s : State) : exec i s = .next (issue i s) := by
  obtain ⟨t, ht⟩ := exec_next i s
  rw [ht, issue_of_exec ht]

/-- A request that succeeds is followed by the next, from the state it ends in (R110). -/
theorem issueAll_cons_of_exec {i : Instr} {s t : State} (h : exec i s = .next t) (hok : (lastResponse t).err = .ok)
    (rest : List Instr) : issueAll (i :: rest) s = issueAll rest t := by
  obtain rfl := issue_of_exec h
  exact issueAll_cons_ok hok rest

/-- A request that reports an error is the last (R110). -/
theorem issueAll_cons_of_error {i : Instr} {s t : State} (h : exec i s = .next t) (herr : (lastResponse t).err ≠ .ok)
    (rest : List Instr) : issueAll (i :: rest) s = t := by
  obtain rfl := issue_of_exec h
  exact issueAll_cons_stop herr rest

/-! ### The frame buffer and the requests issued through the driver -/

/-- Settles O56: the frame buffer follows `EW`, which a successful SET_ORIENTATION alone can write. -/
theorem onlyAChangeOfWidthLosesTheFrame : Obligations.OnlyAChangeOfWidthLosesTheFrame := by
  intro i d
  refine ⟨?_, fun hew k => ?_⟩
  · by_cases hew : (d.issue i).pxf.ew = d.pxf.ew
    · have hkept : d.issue i = { d with pxf := issue i d.pxf } := Driver.follow_of_ew hew
      exact .inl (by rw [hkept])
    · obtain ⟨-, hsame, -⟩ | ⟨o, hi, hok, -, -⟩ :=
        geometryIsWrittenBySetOrientationOnly i d.pxf _ (exec_eq_issue i d.pxf)
      · exact absurd hsame hew
      · exact .inr ⟨o, hi, hok, hew⟩
  · have hlost : (d.issue i).fb = .fresh (d.fb.losses + 1) _ _ := Driver.follow_fb_of_ew_ne hew
    rw [hlost, FrameBuffer.fresh_cell]

/-! ### DRAW_PIXEL_SOURCE -/

/-- The response to the ENCODE of a colour (R52, R71). -/
def encodeResponse (c : Rgb) : Response := ⟨.ok, 0#16 ++ packColor c⟩

theorem exec_encode (c : Rgb) (s : State) : exec (.encode c.r c.g c.b) s = .next (succeed (0#16 ++ packColor c) s) := by
  have hres : (packColor c).setWidth 32 = 0#16 ++ packColor c := BitVec.setWidth_eq_append (by decide)
  rw [← hres]
  rfl

/-- ENCODE never fails, so every pixel is packed, and only responses are added (R75, R113). -/
theorem encodePixels_eq (cs : List Rgb) (s : State) : encodePixels cs s =
    (cs.map packColor, { s with rsps := s.rsps ++ cs.map encodeResponse }) := by
  induction cs generalizing s with
  | nil => simp [encodePixels]
  | cons c cs ih =>
    have hres : (0#16 ++ packColor c).setWidth 16 = packColor c := by
      rw [BitVec.setWidth_append, dif_pos (by decide), BitVec.setWidth_eq]
    simp only [encodePixels, issue_of_exec (exec_encode c s), lastResponse_succeed, if_pos, ih, hres]
    simp [succeed, respond, encodeResponse]

/-- Settles O53: the packed colours overwrite as many cells as the source has pixels. -/
theorem drawPixelSourceFillsTheFrameBuffer : Obligations.DrawPixelSourceFillsTheFrameBuffer := by
  intro src d
  refine ⟨fun hsize => ⟨_, if_pos hsize, ?_, fun k c hc => ?_, fun k hk => ?_, rfl⟩, fun hsize => if_neg ?_⟩
  · rw [encodePixels_eq]
    rfl
  · rw [encodePixels_eq]
    exact FrameBuffer.overwrite_cell (by simp [hc]) d.fb
  · rw [encodePixels_eq]
    exact FrameBuffer.overwrite_cell_of_le (by simpa using hk) d.fb
  · rintro ⟨hw, hh, -⟩
    exact hsize.elim (· hw) (· hh)

/-! ### CONSTRUCT -/

/-- The state a RESET that succeeds ends in (R91). -/
def afterReset (s : State) : State := finishReset (afterSent true (initEvents s.cfg.initSeq) (resetStart s))

theorem exec_reset_sent {s : State} (hpins : s.pinsOk = true)
    (hok : s.channelOk (byteCount (initEvents s.cfg.initSeq)) = true) : exec .reset s = .next (afterReset s) := by
  rw [← resetStart_channelOk] at hok
  rw [exec_reset_eq, if_pos hpins, (performs_runInit s.cfg.initSeq).conclude_sent (resetStart_csN s) hok]
  rfl

theorem afterReset_chan (s : State) : (afterReset s).chan = s.chan.skip (byteCount (initEvents s.cfg.initSeq)) := by
  rw [afterReset, resetStart_eq]
  rfl

/-- After a RESET that succeeds, CONSTRUCT goes on to SET_ORIENTATION (R110, R111). -/
theorem issueAll_construct {s t : State} (hpins : s.pinsOk = true)
    (hok : s.channelOk (byteCount (initEvents s.cfg.initSeq)) = true)
    (h : exec (.setOrientation .np) (afterReset s) = .next t) :
    issueAll [.reset, .setOrientation .np] s = t := by
  rw [issueAll_cons_of_exec (exec_reset_sent hpins hok) (by simp [afterReset, finishReset])]
  simp [issueAll, issue_of_exec h]

/-- Settles O52: RESET leaves what SET_ORIENTATION needs, and both add their closed forms to the power-on state. -/
theorem constructFromPowerOn : Obligations.ConstructFromPowerOn := by
  rintro c pins chan s rfl hpins hok
  obtain ⟨hreset, horient⟩ := (channelOk_add (afterReset_chan (.powerOn c pins chan)) 2).1 hok
  have hset := setOrientationSendsThenCaches .np _ rfl rfl horient
  rw [construct, issueAll_construct hpins hreset hset, if_pos (by simp [lastResponse])]
  simp [afterReset, finishReset, succeed, respond, afterSent, resetStart_eq, State.powerOn, pulseEvents,
    effectiveSize, landscape, FrameBuffer.fresh, flagsOf]

/-- CONSTRUCT surfaces the error its requests end with, and hands over nothing (R110, R111). -/
theorem construct_of_error {s t : State} {e : Err} (h : issueAll [.reset, .setOrientation .np] s = t)
    (he : (lastResponse t).err = e) (hne : e ≠ .ok) :
    (construct s).2 = none ∧ (lastResponse (construct s).1).err = e := by
  subst h he
  exact ⟨if_neg hne, rfl⟩

/-- A RESET whose pin test or one of whose bytes fails reports InitializationError (R91, R99). -/
theorem issue_reset_err {s : State}
    (hno : ¬(s.pinsOk = true ∧ s.channelOk (byteCount (initEvents s.cfg.initSeq)) = true)) :
    (lastResponse (issue .reset s)).err = .initializationError := by
  obtain ⟨-, h⟩ | ⟨hpins, u, hu, -⟩ | ⟨-, u, -, h⟩ := exec_reset_cases (exec_eq_issue .reset s)
  · rw [h, lastResponse_fail]
  · have hsent := (writes_runInit s.cfg.initSeq).isSent (resetStart s)
    rw [hu, resetStart_channelOk] at hsent
    exact absurd ⟨hpins, hsent.symm⟩ hno
  · rw [h, lastResponse_fail]

/-- A SET_ORIENTATION in READY one of whose two bytes fails reports TransportError (R99). -/
theorem issue_setOrientation_err {o : Orientation} {s : State} (hp : s.phase = .ready) (hno : s.channelOk 2 = false) :
    (lastResponse (issue (.setOrientation o) s)).err = .transportError := by
  obtain ⟨hnot, -⟩ | ⟨-, u, hu, -⟩ | ⟨-, u, -, h⟩ := exec_setOrientation_cases (exec_eq_issue _ s)
  · exact absurd hp hnot
  · have hsent := (writes_command s.cfg.cmdMemoryAccessControl [flagsOf s.cfg.flagsTable o]).isSent s
    rw [hu] at hsent
    cases hsent.trans hno
  · rw [h, lastResponse_fail]

/-- Settles O57: either RESET fails, or it succeeds and leaves a failing byte to SET_ORIENTATION. -/
theorem constructFailsWithItsFirstError : Obligations.ConstructFailsWithItsFirstError := by
  rintro c pins chan s rfl hfail
  split
  · next hreset =>
    obtain ⟨hpins, hok⟩ := hreset
    have horient : (afterReset (.powerOn c pins chan)).channelOk 2 = false := by
      have hnot := hfail.resolve_left (by simp [hpins])
      rw [Bool.eq_false_iff] at hnot ⊢
      exact fun h => hnot ((channelOk_add (afterReset_chan (.powerOn c pins chan)) 2).2 ⟨hok, h⟩)
    have hstop := issueAll_construct hpins hok (exec_eq_issue _ _)
    exact construct_of_error hstop (issue_setOrientation_err rfl horient) Err.noConfusion
  · next hreset =>
    have herr := issue_reset_err hreset
    have hstop := issueAll_cons_of_error (exec_eq_issue _ _) (herr.trans_ne Err.noConfusion) [.setOrientation .np]
    exact construct_of_error hstop herr Err.noConfusion

/-! ### SEND_FRAME: the pixels of the stream -/

/-- The responses to the last `n` pixels of a stream: the count down to 0 (R95, R114). -/
def countdown (n : Nat) : List Response := (List.range n).map fun k => ⟨.ok, BitVec.ofNat 32 (n - 1 - k)⟩

theorem countdown_succ (n : Nat) : countdown (n + 1) = ⟨.ok, BitVec.ofNat 32 n⟩ :: countdown n := by
  simp [countdown, List.range_succ_eq_map, Nat.sub_sub, Nat.add_comm]

/-- The state after a pixel that leaves `r` pixels owed (R95). -/
def afterPixel (p : Slot) (r : Word) (s : State) : State :=
  { s with
    rem := r, dc := some true, trace := s.trace ++ pixelEvents p, chan := s.chan.skip 2
    rsps := s.rsps ++ [⟨.ok, r⟩] }

/-- The state after all the pixels of a stream, the last of which closes it (R95, R114). -/
def afterStream (vs : List Slot) (s : State) : State :=
  { s with
    phase := .ready, rem := 0, csN := true, dc := some true
    trace := s.trace ++ vs.flatMap pixelEvents ++ [.cs true]
    chan := s.chan.skip (2 * vs.length), rsps := s.rsps ++ countdown vs.length }

theorem afterStream_afterPixel (p : Slot) (vs : List Slot) (s : State) :
    afterStream vs (afterPixel p (BitVec.ofNat 32 vs.length) s) = afterStream (p :: vs) s := by
  have hbytes : 2 * (p :: vs).length = 2 + 2 * vs.length := by rw [List.length_cons]; omega
  rw [afterStream, afterStream, hbytes, List.length_cons, countdown_succ]
  simp [afterPixel]

/-- From an open stream that owes as many pixels as there are, the pixels close it (R95, R114). -/
theorem issueAll_streamPixels {vs : List Slot} {s : State} (hp : s.phase = .streaming) (hcs : s.csN = false)
    (hrem : s.rem.toNat = vs.length) (hpos : 0 < vs.length) (hok : s.channelOk (2 * vs.length) = true) :
    issueAll (vs.map .streamPixel) s = afterStream vs s := by
  induction vs generalizing s with
  | nil => cases hpos
  | cons p vs ih =>
    have hsplit : 2 * (p :: vs).length = 2 + 2 * vs.length := by rw [List.length_cons]; omega
    have hchan : (afterPixel p (BitVec.ofNat 32 vs.length) s).chan = s.chan.skip 2 := rfl
    rw [hsplit, channelOk_add hchan] at hok
    obtain ⟨hpixel, hrest⟩ := hok
    rw [List.length_cons] at hrem
    obtain ⟨hmore, hlast⟩ := streamPixelSendsAndCounts p s hp hcs (by omega) hpixel
    rw [List.map_cons]
    cases vs with
    | nil =>
      have hexec := hlast hrem
      rw [issueAll_cons_of_exec hexec (by simp [lastResponse])]
      simp [issueAll, afterStream, countdown, pixelEvents, Slot.lowByte, Slot.highByte]
    | cons q vs =>
      obtain ⟨r, hr, hexec⟩ := hmore (by simp [hrem])
      have hr' : r.toNat = (q :: vs).length := by omega
      obtain rfl : r = BitVec.ofNat 32 (q :: vs).length := by rw [← hr', BitVec.ofNat_toNat, BitVec.setWidth_eq]
      rw [issueAll_cons_of_exec hexec (by simp [lastResponse])]
      exact (ih (s := afterPixel p _ s) hp hcs hr' (by simp) hrest).trans (afterStream_afterPixel p (q :: vs) s)

/-! ### SEND_FRAME: the full window -/

theorem toNat_sub_one {x : Slot} (h : 0 < x.toNat) : (x - 1).toNat = x.toNat - 1 := by bv_omega

section
variable {ew eh : Slot} (hw : 0 < ew.toNat) (hh : 0 < eh.toNat)
include hw hh

/-- The full window is inside the screen (R94, R114). -/
theorem insideScreen_full : insideScreen ew eh 0 0 (ew - 1) (eh - 1) = true := by
  rw [insideScreen_iff, toNat_sub_one hw, toNat_sub_one hh]
  simp only [BitVec.ofNat_eq_ofNat, BitVec.toNat_ofNat]
  omega

/-- The full window has the screen's pixels (R100, R114). -/
theorem pixelCount_full : pixelCount 0 0 (ew - 1) (eh - 1) = ew.toNat * eh.toNat := by
  rw [pixelCount, toNat_sub_one hw, toNat_sub_one hh]
  change (ew.toNat - 1 - 0 + 1) * (eh.toNat - 1 - 0 + 1) = _
  rw [Nat.sub_zero, Nat.sub_zero, Nat.sub_add_cancel hw, Nat.sub_add_cancel hh]

theorem count_full : Window.count ⟨0, 0, ew - 1, eh - 1⟩ = ew.toNat * eh.toNat := pixelCount_full hw hh

end

/-- The full window is as wide as the screen (R37, R114). -/
theorem width_full {ew eh : Slot} (hw : 0 < ew.toNat) : Window.width ⟨0, 0, ew - 1, eh - 1⟩ = ew.toNat := by
  rw [Window.width, toNat_sub_one hw]
  change ew.toNat - 1 - 0 + 1 = _
  rw [Nat.sub_zero, Nat.sub_add_cancel hw]

/-- The state after a SET_WINDOW of the full window (R94, R114). -/
def afterFullWindow (s : State) : State :=
  succeed (BitVec.ofNat 32 (s.ew.toNat * s.eh.toNat)) (beginStream (BitVec.ofNat 32 (s.ew.toNat * s.eh.toNat))
    (afterSent false (windowEvents s.cfg 0 0 (s.ew - 1) (s.eh - 1)) s))

theorem exec_setWindow_full {s : State} (hp : s.phase = .ready) (hcs : s.csN = true) (hw : 0 < s.ew.toNat)
    (hh : 0 < s.eh.toNat) (hok : s.channelOk 11 = true) :
    exec (.setWindow 0 0 (s.ew - 1) (s.eh - 1)) s = .next (afterFullWindow s) := by
  rw [exec_setWindow_of_inside hp (insideScreen_full hw hh), addressWindow_sent hcs hok, pixelCount_full hw hh]
  rfl

/-- The full window owes the screen's pixels (R94). -/
theorem afterFullWindow_rem (s : State) : (afterFullWindow s).rem.toNat = s.ew.toNat * s.eh.toNat :=
  (BitVec.toNat_ofNat ..).trans (Nat.mod_eq_of_lt (screen_lt s.ew s.eh))

/-- The cells of the frame buffer that SEND_FRAME sends, in order (R114). -/
def frameCells (fb : FrameBuffer) (s : State) : List Slot := (List.range (s.ew.toNat * s.eh.toNat)).map fb.cell

@[simp] theorem length_frameCells (fb : FrameBuffer) (s : State) :
    (frameCells fb s).length = s.ew.toNat * s.eh.toNat := by
  simp [frameCells]

/-- SEND_FRAME asks for the size, opens the full window, and streams the cells (R114). -/
theorem streamFrame_eq (fb : FrameBuffer) (s : State) : streamFrame fb s =
    issueAll (.setWindow 0 0 (s.ew - 1) (s.eh - 1) :: (frameCells fb s).map .streamPixel)
      (succeed (s.ew ++ s.eh) s) := by
  have hew : (s.ew ++ s.eh : Word).extractLsb' 16 16 = s.ew := BitVec.extractLsb'_append_eq_left
  have heh : (s.ew ++ s.eh : Word).extractLsb' 0 16 = s.eh := BitVec.extractLsb'_append_eq_right
  simp only [streamFrame, issue_of_exec (exec_getScreenSize s), lastResponse_succeed, hew, heh, frameCells,
    List.map_map]
  rfl

/-- The whole of SEND_FRAME where every byte succeeds (R114). -/
theorem streamFrame_sent {s : State} (hp : s.phase = .ready) (hcs : s.csN = true) (hw : 0 < s.ew.toNat)
    (hh : 0 < s.eh.toNat) (hok : s.channelOk (11 + 2 * (s.ew.toNat * s.eh.toNat)) = true) (fb : FrameBuffer) :
    streamFrame fb s = afterStream (frameCells fb s) (afterFullWindow (succeed (s.ew ++ s.eh) s)) := by
  have hchan : (afterFullWindow (succeed (s.ew ++ s.eh) s)).chan = s.chan.skip 11 := rfl
  obtain ⟨hwindow, hpixels⟩ := (channelOk_add hchan _).1 hok
  have hopen : exec (.setWindow 0 0 (s.ew - 1) (s.eh - 1)) (succeed (s.ew ++ s.eh) s) =
      .next (afterFullWindow (succeed (s.ew ++ s.eh) s)) := exec_setWindow_full hp hcs hw hh hwindow
  rw [streamFrame_eq, issueAll_cons_of_exec hopen (by simp [afterFullWindow])]
  rw [← length_frameCells fb s] at hpixels
  refine issueAll_streamPixels rfl rfl ?_ ?_ hpixels
  · rw [afterFullWindow_rem, length_frameCells, succeed_ew, succeed_eh]
  · rw [length_frameCells]
    exact Nat.mul_pos hw hh

/-- Settles O54: `EW` stays, so the driver keeps the frame buffer. -/
theorem sendFrameSendsTheWholeFrame : Obligations.SendFrameSendsTheWholeFrame := by
  rintro full d s n rfl hp hcs rfl hpos hok
  have hsent := streamFrame_sent hp hcs (Nat.pos_of_mul_pos_right hpos) (Nat.pos_of_mul_pos_left hpos) hok d.fb
  have hew : (streamFrame d.fb d.pxf).ew = d.pxf.ew := by
    rw [hsent]
    rfl
  have hflat : (frameCells d.fb d.pxf).flatMap pixelEvents =
      (List.range (d.pxf.ew.toNat * d.pxf.eh.toNat)).flatMap fun k => pixelEvents (d.fb.cell k) := List.flatMap_map ..
  have hbytes : byteCount (windowEvents d.pxf.cfg 0 0 (d.pxf.ew - 1) (d.pxf.eh - 1)) = 11 := rfl
  rw [sendFrame, Driver.follow_of_ew hew, hsent, afterStream, hflat]
  simp only [afterFullWindow, afterSent, succeed_cfg, succeed_ew, succeed_eh, hbytes]
  simp [succeed, respond, beginStream, driveDC, countdown]

/-! ### SEND_FRAME on the panel -/

/-- The panel has received the pixels `vs` of a stream into the window, each at its raster position (R37). -/
structure Painted (cfg : Cfg) (w : Window) (vs : List Slot) (p : Panel) : Prop where
  win : p.win = some w
  k : p.k = some vs.length
  rx : p.rx = some (cfg.cmdMemoryWrite, [])
  pixel : ∀ (j : Nat) (v : Slot), vs[j]? = some v →
    p.pixel (w.x0.toNat + j % w.width) (w.y0.toNat + j / w.width) = some (swap16 v)

/-- A raster position belongs to one pixel of the stream only. -/
theorem raster_injective {w j n : Nat} (hmod : j % w = n % w) (hdiv : j / w = n / w) : j = n := by
  rw [← Nat.mod_add_div j w, ← Nat.mod_add_div n w, hmod, hdiv]

/-- One pixel more lands on a position of its own (R37). -/
theorem Painted.concat {cfg : Cfg} {w : Window} {vs : List Slot} {p : Panel} (h : Painted cfg w vs p)
    (hlen : vs.length < w.count) (v : Slot) :
    Painted cfg w (vs ++ [v]) ((pixelEvents v).foldl (Panel.observe cfg) p) := by
  rw [observe_pixelEvents h.win h.k hlen h.rx v]
  refine ⟨h.win, by simp, h.rx, fun j u hj => ?_⟩
  rw [pixel_of_mem_cons (p := p) rfl]
  rcases Nat.lt_trichotomy j vs.length with hlt | rfl | hgt
  · rw [List.getElem?_append_left hlt] at hj
    have hapart : ¬(w.x0.toNat + j % w.width = w.x0.toNat + vs.length % w.width ∧
        w.y0.toNat + j / w.width = w.y0.toNat + vs.length / w.width) := by
      rintro ⟨hmod, hdiv⟩
      exact hlt.ne (raster_injective (Nat.add_left_cancel hmod) (Nat.add_left_cancel hdiv))
    rw [if_neg hapart, h.pixel j u hj]
  · obtain rfl : v = u := by simpa using hj
    rw [if_pos ⟨rfl, rfl⟩]
  · rw [List.getElem?_eq_none (by simp; omega)] at hj
    cases hj

/-- All the pixels of a stream that its window holds (R37). -/
theorem Painted.stream {cfg : Cfg} {w : Window} {p : Panel} (h : Painted cfg w [] p) {vs : List Slot}
    (hlen : vs.length ≤ w.count) : Painted cfg w vs ((vs.flatMap pixelEvents).foldl (Panel.observe cfg) p) := by
  induction vs using List.reverseRecOn with
  | nil => exact h
  | append_singleton vs v ih =>
    rw [List.length_append, List.length_singleton] at hlen
    rw [List.flatMap_append, List.foldl_append, List.flatMap_singleton]
    exact (ih (by omega)).concat (by omega) v

/-- The full window primes the panel (R36, R94, R114). -/
theorem painted_afterFullWindow {s : State} (hne : PanelCommandsDiffer s.cfg) (hmid : (panelOf s).midStream = false)
    (hw : 0 < s.ew.toNat) (hh : 0 < s.eh.toNat) :
    Painted s.cfg ⟨0, 0, s.ew - 1, s.eh - 1⟩ [] (panelOf (afterFullWindow s)) := by
  obtain ⟨hx, hy⟩ := bounds_ordered_of_insideScreen (insideScreen_full hw hh)
  rw [afterFullWindow, panelOf_succeed, panelOf_beginStream, panelOf_afterSent, observe_windowEvents hne hmid hx hy]
  exact ⟨rfl, rfl, rfl, fun j v hj => by cases hj⟩

/-- The release of chip select after the last pixel leaves every pixel (R37). -/
theorem Painted.pixel_close {cfg : Cfg} {w : Window} {vs : List Slot} {p : Panel} (h : Painted cfg w vs p)
    (hne : PanelCommandsDiffer cfg) (x y : Nat) : (p.close cfg).pixel x y = p.pixel x y := by
  rw [close_memoryWrite hne h.rx]
  rfl

theorem panelOf_afterStream (vs : List Slot) (s : State) : panelOf (afterStream vs s) =
    ((vs.flatMap pixelEvents).foldl (Panel.observe s.cfg) (panelOf s)).close s.cfg := by
  have htrace : (afterStream vs s).trace = s.trace ++ (vs.flatMap pixelEvents ++ [.cs true]) := List.append_assoc ..
  rw [panelOf_of_events htrace rfl, List.foldl_append]
  rfl

/-- The cell of a coordinate is in the frame, at the coordinate's raster position (R37, R115). -/
theorem cell_index {w h x y : Nat} (hx : x < w) (hy : y < h) :
    y * w + x < w * h ∧ (y * w + x) % w = x ∧ (y * w + x) / w = y := by
  refine ⟨?_, ?_, ?_⟩
  · calc y * w + x < y * w + w := by omega
      _ = w * (y + 1) := by ring
      _ ≤ w * h := Nat.mul_le_mul_left w hy
  · rw [Nat.mul_add_mod_self_right, Nat.mod_eq_of_lt hx]
  · rw [Nat.add_comm, Nat.add_mul_div_right _ _ (by omega), Nat.div_eq_of_lt hx, Nat.zero_add]

/-- The panel after the full window and its pixels holds the one of index `y * EW + x` at `(x, y)` (R37, R114). -/
theorem pixel_afterFrame {s : State} (hne : PanelCommandsDiffer s.cfg) (hmid : (panelOf s).midStream = false)
    {vs : List Slot} (hlen : vs.length = s.ew.toNat * s.eh.toNat) {x y : Nat} (hx : x < s.ew.toNat)
    (hy : y < s.eh.toNat) {v : Slot} (hv : vs[y * s.ew.toNat + x]? = some v) :
    (panelOf (afterStream vs (afterFullWindow s))).pixel x y = some (swap16 v) := by
  have hw := Nat.zero_lt_of_lt hx
  have hh := Nat.zero_lt_of_lt hy
  have hfits : vs.length ≤ Window.count ⟨0, 0, s.ew - 1, s.eh - 1⟩ := by rw [count_full hw hh, hlen]
  have hpainted := (painted_afterFullWindow hne hmid hw hh).stream hfits
  obtain ⟨-, hmod, hdiv⟩ := cell_index hx hy
  have hpixel := hpainted.pixel _ _ hv
  rw [width_full hw, hmod, hdiv] at hpixel
  rw [panelOf_afterStream]
  exact (hpainted.pixel_close hne x y).trans (by simpa using hpixel)

/-- Settles O55: the pixels fill the full window in raster order, and cell `y * EW + x` is one of them. -/
theorem sendFrameShowsTheFrameOnThePanel : Obligations.SendFrameShowsTheFrameOnThePanel := by
  rintro full d s rfl hi hp hmid hok x y hx hy
  obtain ⟨hindex, -, -⟩ := cell_index hx hy
  have hcell : (frameCells d.fb d.pxf)[y * d.pxf.ew.toNat + x]? = some (d.fb.cell (y * d.pxf.ew.toNat + x)) := by
    simp [frameCells, hindex]
  have hcs := hi.csN_eq_true (by simp [hp])
  rw [sendFrame, Driver.follow_pxf, streamFrame_sent hp hcs (Nat.zero_lt_of_lt hx) (Nat.zero_lt_of_lt hy) hok]
  exact pixel_afterFrame (s := succeed (d.pxf.ew ++ d.pxf.eh) d.pxf) hi.panelCommandsDiffer hmid
    (length_frameCells d.fb d.pxf) hx hy hcell

end Sys2Proof.Machine
end

section
/-! PROOFS. The exceptions chapter (spec/60_exceptions.md): nothing happens between requests (R127), SET_WINDOW outside
the cached screen (R123), and the one error a request reports (R128). -/

namespace Sys2Proof.Machine

/-! ### Nothing to execute, nothing to send -/

/-- Settles O8: no request is accepted, so nothing is executed (R127, R140). -/
theorem nothingHappensWithoutARequest : Obligations.NothingHappensWithoutARequest :=
  fun _ hidle => step_idle hidle

/-- The geometry test of SET_WINDOW comes before its channel activity (R94, R123). -/
theorem exec_setWindow_of_outside {x0 y0 x1 y1 : Slot} {s : State} (h : s.phase = .ready)
    (hout : ¬ insideScreen s.ew s.eh x0 y0 x1 y1 = true) :
    exec (.setWindow x0 y0 x1 y1) s = .next (fail .invalidGeometry s) :=
  congrArg Host.Outcome.next ((whenPhase_admitted h _).trans (if_neg hout))

/-- Settles O28: the bounds are exactly those of the geometry test, which fails. -/
theorem setWindowOutsideTheScreenIsRefused : Obligations.SetWindowOutsideTheScreenIsRefused :=
  fun x0 y0 x1 y1 s hp hout => exec_setWindow_of_outside hp (mt (insideScreen_iff s.ew s.eh x0 y0 x1 y1).1 hout)

/-! ### The error of an operation, item by item of R128 -/

/-- An operation that comes down to one channel activity of `n` bytes reports a failure of that activity, or OK. -/
theorem err_of_conclude {i : Instr} {s t : State} {r : Transfer} {e : Err} {k : State → State} {n : Nat}
    (hexec : exec i s = .next (conclude e r k)) (hsent : r.isSent = s.channelOk n)
    (hk : ∀ u, (lastResponse (k u)).err = .ok) (h : exec i s = .next t) :
    (lastResponse t).err = if s.channelOk n then .ok else e := by
  obtain rfl := next_injective (hexec.symm.trans h)
  rw [← hsent]
  cases r with
  | sent u => exact hk u
  | failed u => exact congrArg Response.err (lastResponse_fail e u)

/-- An admitted operation whose own precondition fails reports the error of that precondition (R128, item 3). -/
theorem err_of_preconditionError {i : Instr} {s t : State} {e : Err} (hadm : admitted i s.phase = true)
    (hpre : preconditionError s i = some e) (h : exec i s = .next t) : (lastResponse t).err = e := by
  cases i with
  | reset =>
    obtain ⟨hpins, rfl⟩ : ¬ s.pinsOk = true ∧ .initializationError = e := by simpa [preconditionError] using hpre
    rw [exec_reset_eq, if_neg hpins] at h
    obtain rfl := next_injective h
    simp
  | setWindow x0 y0 x1 y1 =>
    obtain ⟨hout, rfl⟩ : ¬ insideScreen s.ew s.eh x0 y0 x1 y1 = true ∧ .invalidGeometry = e := by
      simpa [preconditionError] using hpre
    rw [exec_setWindow_of_outside ((admitted_setWindow_iff x0 y0 x1 y1 _).1 hadm) hout] at h
    obtain rfl := next_injective h
    simp
  | setOrientation | streamPixel | encode | decode | nearlyEqual | flagsFor | effectiveSize | getScreenSize | getStatus
  | getRemaining => cases hpre

/-- An admitted operation whose own precondition holds reports a channel failure exactly where one of its bytes fails
(R128, item 4; R99). -/
theorem err_of_channelOk {i : Instr} {s t : State} (hadm : admitted i s.phase = true)
    (hpre : preconditionError s i = none) (h : exec i s = .next t) :
    (lastResponse t).err = if s.channelOk (bytesSent s.cfg i) then .ok else channelError i := by
  cases i with
  | reset =>
    have hpins : s.pinsOk = true := by simpa [preconditionError] using hpre
    have hsent := ((writes_runInit s.cfg.initSeq).isSent (resetStart s)).trans (resetStart_channelOk s _)
    exact err_of_conclude ((exec_reset_eq s).trans (congrArg _ (if_pos hpins))) hsent (fun u => by simp [finishReset]) h
  | setOrientation o =>
    have hp := (admitted_setOrientation_iff o _).1 hadm
    exact err_of_conclude (exec_setOrientation_of_ready hp o) ((writes_command _ _).isSent s) (fun u => by simp) h
  | setWindow x0 y0 x1 y1 =>
    have hp := (admitted_setWindow_iff x0 y0 x1 y1 _).1 hadm
    have hin : insideScreen s.ew s.eh x0 y0 x1 y1 = true := by simpa [preconditionError] using hpre
    exact err_of_conclude (exec_setWindow_of_inside hp hin) (addressWindow_isSent x0 y0 x1 y1 s) (fun u => by simp) h
  | streamPixel p =>
    have hp := (admitted_streamPixel_iff p _).1 hadm
    have hsent := ((writes_sendAll (pixelBytes p)).of_update (driveDC true) (driveDC_chan true)).isSent s
    exact err_of_conclude (exec_streamPixel_of_streaming hp p) hsent (fun u => by simp) h
  | encode | decode | nearlyEqual | flagsFor | effectiveSize | getScreenSize | getStatus | getRemaining =>
    obtain ⟨v, rfl⟩ := exec_readsOnly rfl h
    exact congrArg Response.err (lastResponse_succeed v s)

/-- A legal request reports what its operation does: the items of R128 after the first, in their order. -/
theorem err_of_decode {i : Instr} {s t : State} {w : ReqWord} (hd : decode w = .ok i) (h : exec i s = .next t) :
    (lastResponse t).err = reportedError s w := by
  simp only [reportedError, hd]
  split
  · next hadm =>
    split
    · next e hpre => exact err_of_preconditionError hadm hpre h
    · next hpre => exact err_of_channelOk hadm hpre h
  · next hadm =>
    rw [exec_of_not_admitted (Bool.eq_false_iff.2 hadm)] at h
    obtain rfl := next_injective h
    simp

/-- A RESET that fails its pin test has drawn no answer of the channel oracle (R122). -/
theorem reset_chan_of_not_pinsOk {s t : State} (hpins : s.pinsOk = false) (h : exec .reset s = .next t) :
    t.chan = s.chan := by
  rw [resetWithoutPinsTouchesNothing s hpins] at h
  obtain rfl := next_injective h
  rfl

/-- Settles O33: an illegal word is refused before anything else, and a legal one reports what its operation does, which
does not read the requests still waiting. -/
theorem errorsAreReportedByPriority : Obligations.ErrorsAreReportedByPriority := by
  intro s t w rest hreq h
  cases hd : decode w with
  | error r =>
    rw [step_of_requests hreq, hd] at h
    obtain rfl := next_injective h
    refine ⟨?_, nofun⟩
    simp [refuseIllegal, reportedError, hd]
  | ok i =>
    rw [stepExecutesTheDecodedRequest s w rest i hreq hd] at h
    have hunread : reportedError { s with requests := rest } w = reportedError s w := rfl
    refine ⟨(err_of_decode hd h).trans hunread, ?_⟩
    rintro ⟨⟩ hpins
    exact reset_chan_of_not_pinsOk (s := { s with requests := rest }) hpins h

end Sys2Proof.Machine
end

section
/-! PROOFS. The chapter on reset and hazards (spec/70_reset_and_hazards.md): a complete run owes nothing (R152), an
operation adds a bounded number of events (R150, log 14), and a RESET leaves the panel's flags unknown (R144). -/

namespace Sys2Proof.Machine

/-! ### Complete runs -/

/-- Settles O47: a complete run is in READY, where no stream is open. -/
theorem completeRunOwesNothing : Obligations.CompleteRunOwesNothing := by
  intro s hi hready
  have hp : s.phase ≠ .streaming := by simp [show s.phase = .ready from hready]
  exact ⟨hi.rem_eq_zero hp, hi.csN_eq_true hp⟩

/-! ### The length of a list of events cut by a failing byte -/

/-- A failing byte stays one event and adds at most the release of chip select (R99). -/
theorem length_cutAt_le (j : Nat) (es : List Event) : (cutAt j es).length ≤ es.length + 1 := by
  induction es generalizing j with
  | nil => simp [cutAt]
  | cons e es ih =>
    cases e with
    | tx d b =>
      cases j with
      | zero => simp [cutAt]
      | succ j => simpa [cutAt] using ih j
    | txFail | rst | cs | wait => simpa [cutAt] using ih j

/-- A transaction ends with its own release of chip select, so a cut makes it no longer (R32, R99). -/
theorem length_cutAt_commandEvents {c : Byte} {ds : List Byte} {j : Nat} (hj : j < byteCount (commandEvents c ds)) :
    (cutAt j (commandEvents c ds)).length ≤ (commandEvents c ds).length := by
  have hbody : j < byteCount ([.cs false, .tx false c] ++ ds.map (.tx true)) := by
    simpa [commandEvents, Event.isTx] using hj
  rw [commandEvents, cutAt_append_left hbody, List.length_append]
  exact length_cutAt_le j _

/-- The same of the transactions of an init sequence (R91, R99). -/
theorem length_cutAt_initEvents {steps : List InitStep} {j : Nat} (hj : j < byteCount (initEvents steps)) :
    (cutAt j (initEvents steps)).length ≤ (initEvents steps).length := by
  induction steps generalizing j with
  | nil => cases hj
  | cons st rest ih =>
    cases st with
    | cmd c ds =>
      rw [initEvents, List.length_append]
      rcases Nat.lt_or_ge j (byteCount (commandEvents c ds)) with hlt | hge
      · rw [cutAt_append_left hlt]
        exact (length_cutAt_commandEvents hlt).trans (Nat.le_add_right _ _)
      · obtain ⟨k, rfl⟩ := Nat.exists_eq_add_of_le hge
        rw [cutAt_append_right, List.length_append]
        exact Nat.add_le_add_left (ih (by simpa [initEvents] using hj)) _
    | wait n => simpa [initEvents, cutAt] using ih (by simpa [initEvents, Event.isTx] using hj)

/-! ### Adding at most a number of events -/

/-- The trace of `t` is that of `s` with at most `n` events after it (R19, R150). -/
def AddsAtMost (n : Nat) (s t : State) : Prop := ∃ es : List Event, t.trace = s.trace ++ es ∧ es.length ≤ n

theorem addsAtMost_of_same {s t : State} (h : t.trace = s.trace) (n : Nat) : AddsAtMost n s t :=
  ⟨[], by simp [h], Nat.zero_le n⟩

theorem AddsAtMost.trans {m n : Nat} {s t u : State} (h : AddsAtMost m s t) (k : AddsAtMost n t u) :
    AddsAtMost (m + n) s u := by
  obtain ⟨es, hes, hm⟩ := h
  obtain ⟨fs, hfs, hn⟩ := k
  exact ⟨es ++ fs, by rw [hfs, hes, List.append_assoc], by rw [List.length_append]; omega⟩

theorem AddsAtMost.mono {m n : Nat} {s t : State} (h : AddsAtMost m s t) (hle : m ≤ n) : AddsAtMost n s t := by
  obtain ⟨es, hes, hm⟩ := h
  exact ⟨es, hes, hm.trans hle⟩

theorem AddsAtMost.congr {n : Nat} {s t u : State} (h : AddsAtMost n s u) (ht : t.trace = u.trace) :
    AddsAtMost n s t := by
  rwa [AddsAtMost, ht]

theorem Performs.addsAtMost_of_sent {f : State → Transfer} {a b : Bool} {es : List Event} (hf : Performs f a b es)
    {s u : State} (hs : s.csN = a) (h : f s = .sent u) : AddsAtMost es.length s u := by
  obtain rfl := hf.eq_of_sent hs h
  exact ⟨es, rfl, Nat.le_refl _⟩

theorem Performs.addsAtMost_of_failed {f : State → Transfer} {a b : Bool} {es : List Event} (hf : Performs f a b es)
    {s u : State} {n : Nat} (hcut : ∀ j < byteCount es, (cutAt j es).length ≤ n) (hs : s.csN = a)
    (h : f s = .failed u) : AddsAtMost n s u := by
  obtain ⟨j, hj, rfl⟩ := hf.eq_of_failed hs h
  exact ⟨cutAt j es, rfl, hcut j hj⟩

/-- A RESET opens with the pulse's four events, after a release of chip select where a transaction is open (R91). -/
theorem addsAtMost_resetStart (s : State) : AddsAtMost 5 s (resetStart s) := by
  refine ⟨resetOpening s, by rw [resetStart_eq_afterSent]; rfl, ?_⟩
  cases h : s.csN <;> simp [resetOpening, pulseEvents, h]

/-- Counting a pixel adds at most the release of chip select (R95). -/
theorem addsAtMost_countPixel (s : State) : AddsAtMost 1 s (countPixel s) := by
  unfold countPixel
  split
  · cases h : s.csN
    · exact ⟨[.cs true], by simp [h], Nat.le_refl _⟩
    · exact addsAtMost_of_same (by simp [h]) 1
  · exact addsAtMost_of_same rfl 1

/-! ### The events of an operation -/

/-- How many events an operation adds at most (R150; 17 by log 14). -/
def eventBound (c : Cfg) : Instr → Nat
  | .reset => 5 + (initEvents c.initSeq).length
  | .setWindow .. => 17
  | .setOrientation _ | .streamPixel _ | .encode .. | .decode _ | .nearlyEqual .. | .flagsFor _ | .effectiveSize ..
  | .getScreenSize | .getStatus | .getRemaining => 4

theorem exec_reset_addsAtMost {s t : State} (h : exec .reset s = .next t) :
    AddsAtMost (eventBound s.cfg .reset) s t := by
  have hperf := performs_runInit s.cfg.initSeq
  have hcs := resetStart_csN s
  obtain ⟨-, rfl⟩ | ⟨-, u, hu, rfl⟩ | ⟨-, u, hu, rfl⟩ := exec_reset_cases h
  · exact addsAtMost_of_same rfl _
  · exact (addsAtMost_resetStart s).trans (hperf.addsAtMost_of_sent hcs hu) |>.congr rfl
  · have hcut := hperf.addsAtMost_of_failed (fun _ => length_cutAt_initEvents) hcs hu
    exact (addsAtMost_resetStart s).trans hcut |>.congr rfl

theorem exec_setOrientation_addsAtMost {o : Orientation} {s t : State} (hi : Inv s)
    (h : exec (.setOrientation o) s = .next t) : AddsAtMost (eventBound s.cfg (.setOrientation o)) s t := by
  have hperf := performs_command s.cfg.cmdMemoryAccessControl [flagsOf s.cfg.flagsTable o]
  obtain ⟨-, rfl⟩ | ⟨hp, u, hu, rfl⟩ | ⟨hp, u, hu, rfl⟩ := exec_setOrientation_cases h
  · exact addsAtMost_of_same rfl _
  · exact hperf.addsAtMost_of_sent (hi.csN_eq_true (by simp [hp])) hu |>.congr rfl
  · exact hperf.addsAtMost_of_failed (fun _ => length_cutAt_commandEvents) (hi.csN_eq_true (by simp [hp])) hu
      |>.congr rfl

theorem exec_setWindow_addsAtMost {x0 y0 x1 y1 : Slot} {s t : State} (hi : Inv s)
    (h : exec (.setWindow x0 y0 x1 y1) s = .next t) :
    AddsAtMost (eventBound s.cfg (.setWindow x0 y0 x1 y1)) s t := by
  have hperf := performs_addressWindow s.cfg x0 y0 x1 y1
  obtain ⟨-, rfl⟩ | ⟨-, -, rfl⟩ | ⟨hp, -, u, hu, rfl⟩ | ⟨hp, -, u, hu, rfl⟩ := exec_setWindow_cases h
  · exact addsAtMost_of_same rfl _
  · exact addsAtMost_of_same rfl _
  · exact hperf.addsAtMost_of_sent (hi.csN_eq_true (by simp [hp])) hu |>.mono (Nat.le_succ 16) |>.congr rfl
  · exact hperf.addsAtMost_of_failed (fun j _ => length_cutAt_le j _) (hi.csN_eq_true (by simp [hp])) hu |>.congr rfl

theorem exec_streamPixel_addsAtMost {p : Slot} {s t : State} (hi : Inv s)
    (h : exec (.streamPixel p) s = .next t) : AddsAtMost (eventBound s.cfg (.streamPixel p)) s t := by
  have hperf := performs_pixel p
  obtain ⟨-, rfl⟩ | ⟨hp, u, hu, rfl⟩ | ⟨hp, u, hu, rfl⟩ := exec_streamPixel_cases h
  · exact addsAtMost_of_same rfl _
  · have hsent := hperf.addsAtMost_of_sent (hi.streaming_iff_cs.1 hp) hu
    exact hsent.trans (addsAtMost_countPixel u) |>.mono (Nat.le_succ 3) |>.congr rfl
  · have hcut := hperf.addsAtMost_of_failed (fun j _ => length_cutAt_le j _) (hi.streaming_iff_cs.1 hp) hu
    exact hcut.mono (Nat.le_succ 3) |>.congr rfl

theorem exec_addsAtMost {i : Instr} {s t : State} (hi : Inv s) (h : exec i s = .next t) :
    AddsAtMost (eventBound s.cfg i) s t := by
  cases i with
  | reset => exact exec_reset_addsAtMost h
  | setOrientation o => exact exec_setOrientation_addsAtMost hi h
  | setWindow x0 y0 x1 y1 => exact exec_setWindow_addsAtMost hi h
  | streamPixel p => exact exec_streamPixel_addsAtMost hi h
  | encode | decode | nearlyEqual | flagsFor | effectiveSize | getScreenSize | getStatus | getRemaining =>
    obtain ⟨v, rfl⟩ := exec_readsOnly rfl h
    exact addsAtMost_of_same rfl _

/-- Operations other than RESET and SET_WINDOW have the common bound (R150). -/
theorem eventBound_of_other {i : Instr} (c : Cfg) (hreset : i ≠ .reset)
    (hwindow : ∀ x0 y0 x1 y1 : Slot, i ≠ .setWindow x0 y0 x1 y1) : eventBound c i = 4 := by
  cases i with
  | reset => exact absurd rfl hreset
  | setWindow x0 y0 x1 y1 => exact absurd rfl (hwindow x0 y0 x1 y1)
  | setOrientation | streamPixel | encode | decode | nearlyEqual | flagsFor | effectiveSize | getScreenSize | getStatus
  | getRemaining => rfl

/-- Settles O44: the three clauses are the values of the one bound. -/
theorem eventsPerOperationAreBounded : Obligations.EventsPerOperationAreBounded := by
  intro i s t hi h
  obtain ⟨es, htrace, hle⟩ := exec_addsAtMost hi h
  refine ⟨es, htrace, ?_, ?_, fun hreset hwindow => hle.trans_eq (eventBound_of_other s.cfg hreset hwindow)⟩
  · rintro rfl
    exact hle
  · rintro ⟨x0, y0, x1, y1, rfl⟩
    exact hle

/-! ### The panel's flags where no memory-access-control command is sent -/

/-- The flags are unknown and no open transaction is about to set them (R36). -/
structure FlagsStayUnknown (cfg : Cfg) (p : Panel) : Prop where
  flags : p.flags = none
  rx : ∀ ds, p.rx ≠ some (cfg.cmdMemoryAccessControl, ds)

section
variable {cfg : Cfg} {p : Panel}

theorem flagsStayUnknown_unknown : FlagsStayUnknown cfg .unknown := ⟨rfl, nofun⟩

/-- Another command byte opens another transaction (R36). -/
theorem FlagsStayUnknown.command (h : FlagsStayUnknown cfg p) {c : Byte} (hc : c ≠ cfg.cmdMemoryAccessControl) :
    FlagsStayUnknown cfg (p.command cfg c) := by
  unfold Panel.command
  split
  · exact ⟨h.flags, by simp [hc]⟩
  · split
    · exact flagsStayUnknown_unknown
    · exact ⟨h.flags, by simp [hc]⟩

theorem FlagsStayUnknown.place (h : FlagsStayUnknown cfg p) (v : Slot) : FlagsStayUnknown cfg (p.place v) := by
  unfold Panel.place
  split
  · split
    · exact ⟨h.flags, h.rx⟩
    · exact flagsStayUnknown_unknown
  · exact flagsStayUnknown_unknown

/-- A data byte stays with the command of its transaction (R36, R37). -/
theorem FlagsStayUnknown.data (h : FlagsStayUnknown cfg p) (b : Byte) : FlagsStayUnknown cfg (p.data cfg b) := by
  unfold Panel.data
  split
  · exact flagsStayUnknown_unknown
  · next c ds hrx =>
    have hc : c ≠ cfg.cmdMemoryAccessControl := fun hc => h.rx ds (hc ▸ hrx)
    split
    · split
      · exact ⟨h.flags, by simp [hc]⟩
      · next hd _ =>
        have hdata : FlagsStayUnknown cfg { p with rx := some (c, []) } := ⟨h.flags, by simp [hc]⟩
        exact hdata.place (hd ++ b)
    · exact ⟨h.flags, by simp [hc]⟩

/-- The end of a transaction of another command sets no flag (R36). -/
theorem FlagsStayUnknown.close (h : FlagsStayUnknown cfg p) : FlagsStayUnknown cfg (p.close cfg) := by
  cases hrx : p.rx with
  | none => simpa [Panel.close, hrx] using h
  | some tr =>
    obtain ⟨c, ds⟩ := tr
    have hc : c ≠ cfg.cmdMemoryAccessControl := fun hc => h.rx ds (hc ▸ hrx)
    have hclosed : ∀ q : Panel, q.flags = p.flags → q.rx = none → FlagsStayUnknown cfg q :=
      fun q hflags hnone => ⟨hflags.trans h.flags, by simp [hnone]⟩
    simp only [Panel.close, hrx, if_neg hc]
    split
    · split
      · exact hclosed _ rfl rfl
      · exact flagsStayUnknown_unknown
    · split
      · split
        · exact hclosed _ rfl rfl
        · exact flagsStayUnknown_unknown
      · split
        · split
          · exact hclosed _ rfl rfl
          · exact flagsStayUnknown_unknown
        · exact flagsStayUnknown_unknown

/-- Every event but a memory-access-control command byte leaves the flags unknown (R36). -/
theorem FlagsStayUnknown.observe (h : FlagsStayUnknown cfg p) {e : Event}
    (he : e ≠ .tx false cfg.cmdMemoryAccessControl) : FlagsStayUnknown cfg (p.observe cfg e) := by
  cases e with
  | rst v => exact flagsStayUnknown_unknown
  | cs v =>
    cases v with
    | false => exact ⟨h.flags, nofun⟩
    | true => exact h.close
  | tx dc b =>
    cases dc with
    | false => exact h.command fun hb => he (hb ▸ rfl)
    | true => exact h.data b
  | txFail dc b => exact flagsStayUnknown_unknown
  | wait n => exact h

end

/-- Every command byte of an init sequence's events comes from one of its steps (R91). -/
theorem hasCommand_of_mem_initEvents {c : Byte} {steps : List InitStep} (h : .tx false c ∈ initEvents steps) :
    hasCommand c steps = true := by
  induction steps with
  | nil => cases h
  | cons st rest ih =>
    cases st with
    | cmd c' ds =>
      obtain rfl | hrest : c = c' ∨ .tx false c ∈ initEvents rest := by
        simpa [initEvents, commandEvents] using h
      · simp [hasCommand]
      · simpa [hasCommand] using Or.inr (ih hrest)
    | wait n => simpa [hasCommand] using ih (by simpa [initEvents] using h)

/-- The reset pulse makes all unknown (R36, U12). -/
theorem panelOf_resetStart (s : State) : panelOf (resetStart s) = .unknown := by
  have htrace : (resetStart s).trace = s.trace ++ (if s.csN then [] else [.cs true]) ++ pulseEvents := by
    simp [resetStart_only]
  rw [panelOf, htrace, List.foldl_append]
  rfl

/-- Settles O51: the pulse makes the flags unknown, no event of the init sequence opens the command that would set them,
and RESET does not write the settings. -/
theorem panelFlagsAreUnknownAfterReset : Obligations.PanelFlagsAreUnknownAfterReset := by
  intro s t _ hno h hok
  have hsame := exec_reset_sameSettings h
  refine ⟨?_, hsame.orient, hsame.ew, hsame.eh⟩
  obtain ⟨-, rfl⟩ | ⟨-, u, hu, rfl⟩ | ⟨-, u, hu, rfl⟩ := exec_reset_cases h
  · simp at hok
  · obtain rfl := (performs_runInit s.cfg.initSeq).eq_of_sent (resetStart_csN s) hu
    have hpanel := panelOf_afterSent true (initEvents s.cfg.initSeq) (resetStart s)
    have hcfg : (resetStart s).cfg = s.cfg := (sameSettings_resetStart s).cfg
    have hunknown : FlagsStayUnknown s.cfg (panelOf (afterSent true (initEvents s.cfg.initSeq) (resetStart s))) := by
      rw [hpanel, hcfg, panelOf_resetStart]
      refine List.foldlRecOn _ _ flagsStayUnknown_unknown fun p hp e he => hp.observe ?_
      rintro rfl
      simp [hasCommand_of_mem_initEvents he] at hno
    exact hunknown.flags
  · simp at hok

end Sys2Proof.Machine
end
